-- ==== Sys2Proof/Word.lean ====
section
/-! DEFINITION. The words the spec treats as bits: bytes of a frame, and 16-bit and 32-bit quantities that
wrap (00 section 0.5; section 9.8). -/

namespace Sys2Proof

/-- One byte of a frame. -/
abbrev Byte := BitVec 8

/-- A spread sample number: "an unsigned 32-bit count of sample rows", arithmetic modulo 2^32 (00 section 0.5). -/
abbrev Ssn := BitVec 32

/-- A 32-bit opaque value or a counter read as a whole word (VP ID, station label, counters). -/
abbrev Word32 := BitVec 32

/-- A set of alert causes, the cause of bit i in bit i (R178). -/
abbrev CauseSet := BitVec 8

end Sys2Proof
end

