-- ==== Sys2Proof/Syntax.lean ====
section
/-! DEFINITION. The commands: one constructor for each row of spec/opcode_table.json. A request takes the oldest
frame of its link's input buffer (R166), so its operands are that frame's payload and the command itself
carries none (log entry 2). -/

namespace Sys2Proof

/-- The three links (00 section 0.3). -/
inductive LinkId where
  | spread
  | source
  | record
deriving DecidableEq, Repr

/-- The operations and events of the part. -/
inductive Instr where
  /-- POWER_ON: the power-on reset input (00 section 0.8). -/
  | powerOn
  /-- FRAME_RECEIPT: a link interface receives one frame's bytes whole (R162). -/
  | frameReceipt (link : LinkId) (bytes : List Byte)
  /-- LINK_UP (R174). -/
  | linkUp (link : LinkId)
  /-- LINK_DOWN (R173). -/
  | linkDown (link : LinkId)
  /-- MESSAGE_SEND: the link sends the oldest message of its output queue (R169). -/
  | messageSend (link : LinkId)
  /-- ROW_BLOCK (R10). -/
  | rowBlock
  /-- STREAM_START (R14). -/
  | streamStart
  /-- UNKNOWN_KIND: a request of no kind of its link is taken (R167). -/
  | unknownKind (link : LinkId)
  /-- PILOT_OPEN (R42). -/
  | pilotOpen
  /-- PILOT_PART (R43). -/
  | pilotPart
  /-- PILOT_CLOSE (R44). -/
  | pilotClose
  /-- PILOT_QUERY (R54). -/
  | pilotQuery
  /-- PILOT_PURGE (R55). -/
  | pilotPurge
  /-- FILL_TIMEOUT: the fill timer of a pilot slot expires (R45). -/
  | fillTimeout (slot : Nat)
  /-- COMMIT_COMPLETION: the commit of a pilot slot completes (R48). -/
  | commitCompletion (slot : Nat)
  /-- SWEEP_ANNOUNCE (R65). -/
  | sweepAnnounce
  /-- SWEEP_REPORT (R85). -/
  | sweepReport
  /-- REPORT_TIMER_EXPIRY: the report timer of the entry with this sweep number expires (R93). -/
  | reportTimerExpiry (sweep : Word32)
  /-- SWEEP_CANCEL (R74). -/
  | sweepCancel
  /-- VP_END (R130). -/
  | vpEnd
  /-- LINGER_EXPIRY: the linger timer of a stack slot expires (R131). -/
  | lingerExpiry (slot : Nat)
  /-- GRANT: the Lane Dispatcher joins a READY sweep to an IDLE lane (R101). -/
  | grant
  /-- CORRELATE_COMPLETION: a lane finishes CORRELATE (R111). -/
  | correlateCompletion (lane : Nat)
  /-- MERGE_COMPLETION: a lane finishes MERGE (R114). -/
  | mergeCompletion (lane : Nat)
  /-- SETUP_STREAM (R2). -/
  | setupStream
  /-- CHANNEL_SET (R26). -/
  | channelSet
  /-- CHANNEL_READ (R28). -/
  | channelRead
  /-- FLEET_SET (R60). -/
  | fleetSet
  /-- FLEET_READ (R62). -/
  | fleetRead
  /-- STACK_LIST (R142). -/
  | stackList
  /-- STACK_STATUS (R143). -/
  | stackStatus
  /-- STACK_SEAL (R136). -/
  | stackSeal
  /-- RECORD_READ (R149). -/
  | recordRead
  /-- RECORD_HEADER: the Harvest Unit hands on the read's header (R156). -/
  | recordHeader
  /-- TRACE: the Harvest Unit hands on the read's next trace (R157). -/
  | trace
  /-- STACK_RELEASE (R140). -/
  | stackRelease
  /-- ALERT_MASK (R181). -/
  | alertMask
  /-- ALERT_ACK (R182). -/
  | alertAck
  /-- DEVICE_STATUS (R184). -/
  | deviceStatus
  /-- CAPABILITY_READ (R185). -/
  | capabilityRead
  /-- DEVICE_CLEAR (R186). -/
  | deviceClear
deriving DecidableEq, Repr

end Sys2Proof
end

