-- ==== Sys2Proof/Decode.lean ====
section
/-! DEFINITION. The command that a word spells by the table's bits. spec/opcode_table.json gives no row any bits
(every row's fields are empty), so no word spells a command (log entry 17). The bytes of frames are read by
Machine/Operands.lean. -/

namespace Sys2Proof

/-- No row of the table gives bits: no word of any width spells a command. -/
def decodeTableWord (_nbits _w : Nat) : Option Instr := none

end Sys2Proof
end

