-- ==== Sys2Proof/Config.lean ====
section
/-! DEFINITION. What the part fixes (00 section 0.4, R185) and the free values: what the spec leaves unstated
and the model therefore leaves unconstrained (log entry 15). -/

namespace Sys2Proof.Config

/-- Channel table entries (R24). -/
abbrev channels : Nat := 1024
/-- Fleet records (R58). -/
abbrev fleets : Nat := 8
/-- Pilot slots (R40). -/
abbrev pilots : Nat := 16
/-- Correlation lanes (R98). -/
abbrev lanes : Nat := 4
/-- Stack slots (R122). -/
abbrev stackSlots : Nat := 12

/-- Rows the Sample Ring holds at most (R18). -/
def ringRows : Nat := 65536
/-- The widest gap that is closed by zero-fill (R10). -/
def gapRows : Nat := 4096
/-- Rows of a monitor interval (section 2.4). -/
def intervalRows : Nat := 1024
/-- Entries of the sweep table (R63). -/
def sweepEntries : Nat := 32
/-- Merged plus pending sweeps of a stack (R127). -/
def largestFold : Nat := 32
/-- Places of the Spread Link input buffer (R4). -/
def spreadPlaces : Nat := 16
/-- Places of the Source Link and Record Link input buffers (R165). -/
def requestPlaces : Nat := 4
/-- The largest payload of a frame (R162). -/
def payloadLimit : Nat := 32832
/-- Length of the fill timer in ms (R45). -/
def fillTimerMs : Nat := 2000
/-- Rows a T0 may lie ahead of the newest row (R66). -/
def leadRows : Int := 32768

/-- FREE VALUE (log entry 15): the bytes of result fields whose contents the spec does not state. No body:
nothing can be proved of it. -/
opaque freeByte : Nat → Byte

/-- FREE VALUE (log entry 15): how many bytes of result fields a reply carries where the spec does not state
which fields there are. -/
opaque freeLength : Nat → Nat

end Sys2Proof.Config
end

