-- ==== Sys2Proof/Machine/State.lean ====
section
/-! DEFINITION. The state of the part, block by block (00 section 0.2), as plain data, and its power-on value. -/

namespace Sys2Proof.Machine

/-- The part has no fault: a bad frame, request or block is discarded or answered (R6, R162, R167), so no command
stops the machine and this type has no constructor. -/
inductive Fault where
deriving DecidableEq, Repr

/-- Why a command is refused. Safe: a refusal only hides behaviour. -/
inductive Refusal where
  /-- Raised by an arm of exec whose command has no meaning yet. Safe. No arm raises it in this model. -/
  | notModelled (mnemonic : String)
deriving DecidableEq, Repr

/-! ### Device clock -/

/-- A running timer: the length in ms it was last started with, and its deadline on the device millisecond clock
(00 section 0.5, R40, R63, R122). -/
structure Timer where
  length : Nat
  deadline : Nat
deriving DecidableEq, Repr

/-! ### Stream Ingest Unit and Sample Ring (chapter 1) -/

/-- One word of a ring row: the normalised value and the two marks (R16, R17). -/
structure RingWord where
  x : Int
  clipped : Bool
  dropout : Bool
deriving DecidableEq, Repr, Inhabited

/-- One retained row, with its SSN (R18). -/
structure RingRow where
  ssn : Ssn
  words : List RingWord
deriving DecidableEq, Repr

/-- Origin state SET: the stream origin and the expected next SSN E (R8). -/
structure StreamOrigin where
  origin : Ssn
  expected : Ssn
deriving DecidableEq, Repr

/-- The Stream Ingest Unit. `origin` is none in origin state NONE (R1, R8, R22). -/
structure Ingest where
  channels : Nat
  interval : Fin 4
  origin : Option StreamOrigin
  discarded : Word32
  gapRows : Word32
  staleRows : Word32
  dropouts : Word32
deriving DecidableEq, Repr

/-! ### Channel Monitor (chapter 2) -/

/-- Monitor state of a channel, in the order R24 lists them. -/
inductive MonitorState where
  | normal
  | dead
deriving DecidableEq, Repr

/-- The latched flags of a channel, a set (R24). -/
structure Latched where
  deadSeen : Bool
  noisySeen : Bool
  clipSeen : Bool
  dropoutSeen : Bool
deriving DecidableEq, Repr

/-- One entry of the channel table (R24). -/
structure Channel where
  active : Bool
  label : Word32
  deadThreshold : Nat
  noiseThreshold : Nat
  monitor : MonitorState
  lowRun : Nat
  lastLevel : Nat
  latched : Latched
  intervalSum : Nat
  partialMark : Bool
deriving DecidableEq, Repr

/-- The Channel Monitor: the table, the monitor origin and the row position (R24). -/
structure Monitor where
  table : Vector Channel Config.channels
  origin : Option Ssn
  position : Nat
deriving DecidableEq, Repr

/-! ### Pilot Library (chapter 3) -/

/-- State of a pilot slot with the fields R40 gives it there. `samples` holds the samples received; their number is
"samples received". -/
inductive PilotPhase where
  | empty
  | filling (length : Nat) (interval : Fin 4) (samples : List (BitVec 16)) (timer : Timer)
  | committing (length : Nat) (interval : Fin 4) (samples : List (BitVec 16))
  | ready (length : Nat) (interval : Fin 4) (samples : List (BitVec 16)) (energy : Nat)
deriving DecidableEq, Repr

/-- Last result of a pilot slot, in the order R40 lists them. -/
inductive PilotResult where
  | none
  | committed
  | zeroEnergy
  | fillTimeout
  | purged
deriving DecidableEq, Repr

/-- A pilot slot (R40). -/
structure PilotSlot where
  phase : PilotPhase
  generation : BitVec 16
  pins : Nat
  lastResult : PilotResult
deriving DecidableEq, Repr

/-! ### Fleets and sweeps (chapters 4 and 5) -/

/-- Weight mode (R58). -/
inductive WeightMode where
  | plain
  | diversity
deriving DecidableEq, Repr

/-- QC policy (R58). -/
inductive QcPolicy where
  | reject
  | keep
deriving DecidableEq, Repr

/-- No-report action (R58). -/
inductive NoReport where
  | pass
  | fail
deriving DecidableEq, Repr

/-- The parameter fields of a fleet record, but for the defined flag (R58). `shift` is none for AUTO. -/
structure FleetParams where
  vibrators : Nat
  listen : Nat
  shift : Option Nat
  weight : WeightMode
  burst : Nat
  clipLimit : Nat
  peakPhase : Nat
  meanPhase : Nat
  distortion : Nat
  minForce : Nat
  policy : QcPolicy
  noReport : NoReport
  reportTimeout : Nat
  linger : Nat
  minSlip : Nat
deriving DecidableEq, Repr

/-- A fleet record with its two dynamic fields (R58, R59). -/
structure Fleet where
  defined : Bool
  params : FleetParams
  lastT0 : Option Ssn
  openSlot : Option (Fin Config.stackSlots)
deriving DecidableEq, Repr

/-- The parameter copy of a sweep entry, with the resolved correlation shift (R70). -/
structure SweepCopy where
  listen : Nat
  shift : Nat
  weight : WeightMode
  burst : Nat
  clipLimit : Nat
  peakPhase : Nat
  meanPhase : Nat
  distortion : Nat
  minForce : Nat
  vibrators : Nat
  policy : QcPolicy
  noReport : NoReport
  reportTimeout : Nat
deriving DecidableEq, Repr

/-- QC outcome (R63, R84). -/
inductive QcOutcome where
  | pending
  | pass
  | fail
  | noReport
deriving DecidableEq, Repr

/-- Fail set of a sweep (R63). -/
structure FailSet where
  missing : Bool
  phasePeak : Bool
  phaseMean : Bool
  distortion : Bool
  force : Bool
deriving DecidableEq, Repr

/-- Stage of a sweep, with the lane that holds its job (R63, R98). -/
inductive Stage where
  | waiting
  | ready
  | correlating (lane : Fin Config.lanes)
  | merging (lane : Fin Config.lanes)
deriving DecidableEq, Repr

/-- An entry of the sweep table (R63). -/
structure SweepEntry where
  number : Word32
  fleet : Fin Config.fleets
  vp : Word32
  slot : Fin Config.stackSlots
  pilot : Fin Config.pilots
  t0 : Ssn
  pilotLength : Nat
  dataRow : Ssn
  copy : SweepCopy
  dataComplete : Bool
  qc : QcOutcome
  failSet : FailSet
  stage : Stage
  timer : Option Timer
deriving DecidableEq, Repr

/-- Outcome of a resolution, in the order R78 lists them. -/
inductive SweepOutcome where
  | merged
  | rejectedQc
  | cancelled
  | droppedOverrun
  | droppedRestart
  | droppedClear
deriving DecidableEq, Repr

/-! ### Correlation lanes (chapter 6) -/

/-- What a lane's snapshot holds of one channel (R39, R101). -/
structure ChannelView where
  active : Bool
  monitor : MonitorState
deriving DecidableEq, Repr

/-- A lane's job: the sweep in hand and the inputs taken at the grant (R98, R101). The configured channel count is
the snapshot's length. -/
structure Job where
  sweep : Word32
  slot : Fin Config.stackSlots
  t0 : Ssn
  pilotLength : Nat
  pilot : Fin Config.pilots
  listen : Nat
  shift : Nat
  weight : WeightMode
  burst : Nat
  clipLimit : Nat
  qc : QcOutcome
  noReport : NoReport
  snapshot : List ChannelView
deriving DecidableEq, Repr

/-- The cause of a trace that is not correlated (R104, R110). -/
inductive TraceCause where
  | inactive
  | dead
  | clip
  | burst
deriving DecidableEq, Repr

/-- The scratch record of one channel (R110). `trace` is empty where the weight is 0. -/
structure TraceRecord where
  cause : Option TraceCause
  weight : Nat
  trace : List Int
deriving DecidableEq, Repr

/-- The three counts of a job (R110). -/
structure JobCounts where
  edited : Nat
  inactive : Nat
  saturated : Nat
deriving DecidableEq, Repr

/-- A lane's scratch (R110). -/
structure Scratch where
  records : List TraceRecord
  counts : JobCounts
deriving DecidableEq, Repr

/-- A lane (R98): the job is present in every state but IDLE, the scratch from the CORRELATE completion on. The
merge port a MERGING lane holds is its job's slot's. -/
inductive Lane where
  | idle
  | correlating (job : Job)
  | mergeWait (job : Job) (scratch : Scratch)
  | merging (job : Job) (scratch : Scratch)
deriving DecidableEq, Repr

/-! ### Stack Store (chapter 7) -/

/-- Seal cause, in the order R122 lists them. -/
inductive SealCause where
  | lingerExpired
  | recorderSeal
  | fleetMoved
deriving DecidableEq, Repr

/-- State of a stack slot that is not FREE, with the optional fields R122 gives it there. -/
inductive StackPhase where
  | opened
  | linger (timer : Timer)
  | draining (cause : SealCause)
  | sealed (cause : SealCause) (order : Word32)
  | harvesting (cause : SealCause)
deriving DecidableEq, Repr

/-- The edit causes seen of a channel (R123). -/
structure EditSet where
  dead : Bool
  clip : Bool
  burst : Bool
deriving DecidableEq, Repr

/-- The record of one channel of a stack (R123). -/
structure ChannelStack where
  acc : List Int
  weightSum : Nat
  accepted : Nat
  edited : Nat
  causes : EditSet
deriving DecidableEq, Repr

/-- A stack slot that is not FREE: its slot-wide fields and per-channel records (R122, R123). -/
structure Stack where
  phase : StackPhase
  fleet : Fin Config.fleets
  vp : Word32
  serial : Word32
  listen : Nat
  interval : Fin 4
  channels : Nat
  fold : Nat
  pending : Nat
  qcKept : Nat
  qcRejected : Word32
  dropped : Word32
  firstT0 : Option Ssn
  lastT0 : Option Ssn
  tag : BitVec 16
  corrSat : Bool
  records : List ChannelStack
deriving DecidableEq, Repr

/-- A merge port with its waiting list (R112). -/
structure MergePort where
  holder : Option (Fin Config.lanes)
  waiting : List (Fin Config.lanes)
deriving DecidableEq, Repr

/-! ### Harvest Unit (chapter 8) -/

/-- Normalisation of a read (section 8.2). -/
inductive ReadMode where
  | mean
  | sum
deriving DecidableEq, Repr

/-- Output sample width (section 8.2). -/
inductive SampleWidth where
  | w16
  | w24
  | w32
deriving DecidableEq, Repr

/-- The read in hand (R146), with the frame tag its messages carry (R170). `handed` counts the read's messages
already handed on, the REPLY first (R150; log entry 8). -/
structure ReadInHand where
  slot : Fin Config.stackSlots
  first : Nat
  count : Nat
  mode : ReadMode
  shift : Nat
  width : SampleWidth
  handed : Nat
  tag : Byte
deriving DecidableEq, Repr

/-! ### Messages and links (chapter 9) -/

/-- A received frame that has passed the envelope check (section 9.1). -/
structure Frame where
  kind : Byte
  tag : Byte
  payload : List Byte
deriving DecidableEq, Repr

/-- Outcome codes, in the order of their numbers (R177). -/
inductive Code where
  | done
  | unknownKind
  | badLength
  | badValue
  | busy
  | fleetUndefined
  | pilotNotReady
  | pilotPinned
  | pilotState
  | pilotSequence
  | pilotIncomplete
  | intervalMismatch
  | t0OutOfRange
  | slipTooShort
  | tableFull
  | noStackSlot
  | listenMismatch
  | foldFull
  | vpUnknown
  | sweepUnknown
  | reportDuplicate
  | reportLate
  | tooLate
  | tagStale
  | slotState
deriving DecidableEq, Repr

/-- The fields of a SWEEP RESULT (R78). `counts` is none but for MERGED. -/
structure SweepResult where
  number : Word32
  fleet : Fin Config.fleets
  vp : Word32
  t0 : Ssn
  slot : Fin Config.stackSlots
  outcome : SweepOutcome
  stage : Stage
  dataComplete : Bool
  qc : QcOutcome
  failSet : FailSet
  counts : Option JobCounts
deriving DecidableEq, Repr

/-- The fields of a RECORD HEADER (R156). -/
structure RecordHeader where
  vp : Word32
  fleet : Fin Config.fleets
  serial : Word32
  cause : Option SealCause
  fold : Nat
  qcRejected : Word32
  qcKept : Nat
  dropped : Word32
  firstT0 : Option Ssn
  lastT0 : Option Ssn
  listen : Nat
  interval : Fin 4
  channels : Nat
  corrSat : Bool
  mode : ReadMode
  shift : Nat
  width : SampleWidth
  first : Nat
  count : Nat
deriving DecidableEq, Repr

/-- The fields of a TRACE (R157). -/
structure TraceMessage where
  channel : Nat
  label : Word32
  accepted : Nat
  edited : Nat
  causes : EditSet
  weightSum : Nat
  isEmpty : Bool
  outSat : Bool
  saturated : Nat
  width : SampleWidth
  samples : List Int
deriving DecidableEq, Repr

/-- A message of the part, each with its frame tag (R168, R169, R170). -/
inductive Message where
  | reply (tag : Byte) (kind : Byte) (code : Code) (result : List Byte)
  | sweepResult (tag : Byte) (result : SweepResult)
  | alert (tag : Byte) (pending : CauseSet)
  | recordHeader (tag : Byte) (header : RecordHeader)
  | trace (tag : Byte) (trace : TraceMessage)
deriving DecidableEq, Repr

/-- The Spread Link interface (R4, R164, R172). -/
structure SpreadLink where
  up : Bool
  input : List Frame
  crcDiscards : Word32
  overflows : Word32
deriving DecidableEq, Repr

/-- The Source Link or Record Link interface (R164, R165, R169, R170, R172). `sent` is the model's own: the frames
put on the line since power-on, oldest first (log entry 16). -/
structure PartnerLink where
  up : Bool
  input : List Frame
  output : List Message
  crcDiscards : Word32
  overflows : Word32
  sequence : BitVec 8
  sent : List (List Byte)
deriving DecidableEq, Repr

/-- The Alert Unit (R178). -/
structure Alerts where
  pending : CauseSet
  mask : CauseSet
deriving DecidableEq, Repr

/-! ### The whole part -/

/-- The state of the part. `heldAlerts` are the ALERTs held for a read in hand (R171). `pending` is the queue of
commands that wait, `freeCount` the argument of the free values (the model's own fields, log entries 15 to 17). -/
structure State where
  ingest : Ingest
  ring : List RingRow
  monitor : Monitor
  pilots : Vector PilotSlot Config.pilots
  fleets : Vector Fleet Config.fleets
  sweeps : List SweepEntry
  sweepCounter : Word32
  lanes : Vector Lane Config.lanes
  slots : Vector (Option Stack) Config.stackSlots
  ports : Vector MergePort Config.stackSlots
  harvestQueue : List (Fin Config.stackSlots)
  stackSerials : Word32
  sealOrders : Word32
  reading : Option ReadInHand
  alerts : Alerts
  spread : SpreadLink
  source : PartnerLink
  record : PartnerLink
  heldAlerts : List Message
  clock : Nat
  freeCount : Nat
  pending : List Instr
deriving DecidableEq, Repr

/-! ### Power-on values -/

/-- R24's value after power-on. -/
def Latched.reset : Latched := { deadSeen := false, noisySeen := false, clipSeen := false, dropoutSeen := false }

/-- R24's values after power-on. -/
def Channel.reset : Channel :=
  { active := false, label := 0, deadThreshold := 16, noiseThreshold := 32767, monitor := .normal, lowRun := 0,
    lastLevel := 0, latched := Latched.reset, intervalSum := 0, partialMark := false }

/-- R1, R8, R22. -/
def Ingest.reset : Ingest :=
  { channels := 0, interval := 2, origin := none, discarded := 0, gapRows := 0, staleRows := 0, dropouts := 0 }

/-- R24. -/
def Monitor.reset : Monitor :=
  { table := Vector.replicate Config.channels Channel.reset, origin := none, position := 0 }

/-- R40. -/
def PilotSlot.reset : PilotSlot := { phase := .empty, generation := 0, pins := 0, lastResult := .none }

/-- R58's values after power-on. -/
def FleetParams.reset : FleetParams :=
  { vibrators := 1, listen := 4096, shift := none, weight := .plain, burst := 0, clipLimit := 0, peakPhase := 1800,
    meanPhase := 1800, distortion := 1000, minForce := 0, policy := .keep, noReport := .pass, reportTimeout := 5000,
    linger := 1000, minSlip := 0 }

/-- R58, R59. -/
def Fleet.reset : Fleet := { defined := false, params := FleetParams.reset, lastT0 := none, openSlot := none }

/-- A port free with an empty waiting list (R112). -/
def MergePort.reset : MergePort := { holder := none, waiting := [] }

/-- A link down with empty buffer and zero counters (R4, R164, R172). -/
def SpreadLink.reset : SpreadLink := { up := false, input := [], crcDiscards := 0, overflows := 0 }

/-- A link down, its buffer and queue empty, its counters and sequence 0 (R164, R165, R169, R170, R172). -/
def PartnerLink.reset : PartnerLink :=
  { up := false, input := [], output := [], crcDiscards := 0, overflows := 0, sequence := 0, sent := [] }

/-- The part right after power-on. -/
def State.reset : State :=
  { ingest := Ingest.reset, ring := [], monitor := Monitor.reset,
    pilots := Vector.replicate Config.pilots PilotSlot.reset,
    fleets := Vector.replicate Config.fleets Fleet.reset, sweeps := [], sweepCounter := 0,
    lanes := Vector.replicate Config.lanes Lane.idle,
    slots := Vector.replicate Config.stackSlots none,
    ports := Vector.replicate Config.stackSlots MergePort.reset,
    harvestQueue := [], stackSerials := 0, sealOrders := 0, reading := none,
    alerts := { pending := 0, mask := 0 }, spread := SpreadLink.reset, source := PartnerLink.reset,
    record := PartnerLink.reset, heldAlerts := [], clock := 0, freeCount := 0, pending := [] }

end Sys2Proof.Machine
end

