-- ==== Sys2Proof/Machine/Ops.lean ====
section
/-! DEFINITION. Arithmetic of the conventions (00 section 0.5), tables of fixed size, the Sample Ring's bounds and
the timers: the operations every family shares. -/

namespace Sys2Proof.Machine

/-! ### SSNs (00 section 0.5) -/

/-- "a is before b": (b - a) mod 2^32 lies in 1..2^31-1. -/
def ssnBefore (a b : Ssn) : Bool := decide (1 ≤ (b - a).toNat ∧ (b - a).toNat ≤ 2147483647)

/-- "At or before" includes equality. -/
def ssnAtOrBefore (a b : Ssn) : Bool := decide (a = b) || ssnBefore a b

/-- The distance from b to a read as signed, a distance of exactly 2^31 read as -2^31. -/
def ssnDistance (a b : Ssn) : Int := (a - b).toInt

/-! ### Numbers -/

/-- An unsigned 32-bit counter that stops at its largest value (R22, R164). -/
def satAdd32 (c : Word32) (n : Nat) : Word32 :=
  if c.toNat + n ≤ 4294967295 then BitVec.ofNat 32 (c.toNat + n) else BitVec.ofNat 32 4294967295

/-- A value clamped into a range (00 section 0.5). -/
def clamp (lo hi v : Nat) : Nat := if v < lo then lo else if hi < v then hi else v

/-- Division by `d` rounded half away from zero: the magnitude is divided, a remainder of one half or more rounds
it up, and the sign is restored (00 section 0.5). -/
def roundDiv (a : Int) (d : Nat) : Int :=
  let m : Nat := a.natAbs / d + (if d ≤ 2 * (a.natAbs % d) then 1 else 0)
  if a < 0 then -(m : Int) else (m : Int)

/-- Saturate to n bits: clamp to -2^(n-1)..2^(n-1)-1 (00 section 0.5). -/
def saturate (n : Nat) (v : Int) : Int :=
  if v < -(2 ^ (n - 1) : Int) then -(2 ^ (n - 1) : Int)
  else if (2 ^ (n - 1) : Int) - 1 < v then (2 ^ (n - 1) : Int) - 1 else v

/-- Bit length of a positive integer (00 section 0.5). -/
def bitLength (n : Nat) : Nat := if n = 0 then 0 else Nat.log2 n + 1

/-! ### Tables of fixed size -/

/-- Every entry of a table replaced by a function of it. -/
def mapVec {α β : Type} {n : Nat} (f : α → β) (v : Vector α n) : Vector β n :=
  ⟨⟨v.toList.map f⟩, by simp⟩

/-- The first `k` entries of a list replaced by a function of each; the others kept. -/
def mapFirst {α : Type} (f : α → α) : Nat → List α → List α
  | 0, l => l
  | _ + 1, [] => []
  | k + 1, a :: l => f a :: mapFirst f k l

/-- Entry i combined with item i; the entries beyond the items kept. -/
def zipFirst {α β : Type} (f : α → β → α) : List α → List β → List α
  | [], _ => []
  | l, [] => l
  | a :: l, b :: m => f a b :: zipFirst f l m

/-- `mapFirst` keeps the length. -/
theorem mapFirst_length {α : Type} (f : α → α) (k : Nat) (l : List α) : (mapFirst f k l).length = l.length := by
  induction k generalizing l with
  | zero => rfl
  | succ k ih => cases l with
    | nil => rfl
    | cons a l => simp [mapFirst, ih]

/-- `zipFirst` keeps the length of the first list. -/
theorem zipFirst_length {α β : Type} (f : α → β → α) (l : List α) (m : List β) :
    (zipFirst f l m).length = l.length := by
  induction l generalizing m with
  | nil => rfl
  | cons a l ih => cases m with
    | nil => rfl
    | cons b m => simp [zipFirst, ih]

/-- `mapFirst` on a table. -/
def mapFirstVec {α : Type} {n : Nat} (f : α → α) (k : Nat) (v : Vector α n) : Vector α n :=
  ⟨⟨mapFirst f k v.toList⟩, by simp [mapFirst_length]⟩

/-- `zipFirst` on a table. -/
def zipFirstVec {α β : Type} {n : Nat} (f : α → β → α) (v : Vector α n) (m : List β) : Vector α n :=
  ⟨⟨zipFirst f v.toList m⟩, by simp [zipFirst_length]⟩

/-- Remove the first element that satisfies `p`, from wherever it stands; the others keep their order. -/
def removeFirst {α : Type} (p : α → Bool) : List α → List α
  | [] => []
  | a :: l => if p a then l else a :: removeFirst p l

/-- The place of an element, counted from 1 at the front; none where it does not stand in the list. -/
def placeOf {α : Type} [DecidableEq α] (a : α) : List α → Option Nat
  | [] => none
  | b :: l => if b = a then some 1 else (placeOf a l).map (· + 1)

namespace State

/-- Write one pilot slot. -/
def setPilot (s : State) (p : Fin Config.pilots) (v : PilotSlot) : State := { s with pilots := s.pilots.set p v }

/-- Write one fleet record. -/
def setFleet (s : State) (f : Fin Config.fleets) (v : Fleet) : State := { s with fleets := s.fleets.set f v }

/-- Write one lane. -/
def setLane (s : State) (l : Fin Config.lanes) (v : Lane) : State := { s with lanes := s.lanes.set l v }

/-- Write one stack slot; none is FREE. -/
def setSlot (s : State) (k : Fin Config.stackSlots) (v : Option Stack) : State := { s with slots := s.slots.set k v }

/-- Write one merge port. -/
def setPort (s : State) (k : Fin Config.stackSlots) (v : MergePort) : State := { s with ports := s.ports.set k v }

/-! ### The Sample Ring's bounds (R18) -/

/-- Oldest SSN, absent while the ring is empty. -/
def oldest (s : State) : Option Ssn := s.ring.head?.map RingRow.ssn

/-- Newest SSN, absent while the ring is empty. -/
def newest (s : State) : Option Ssn := s.ring.getLast?.map RingRow.ssn

/-! ### Timers -/

/-- A timer of `ms` milliseconds started now. -/
def startTimer (s : State) (ms : Nat) : Timer := { length := ms, deadline := s.clock + ms }

/-- The lowest-numbered FREE stack slot. -/
def firstFree (s : State) : Option (Fin Config.stackSlots) :=
  (List.finRange Config.stackSlots).find? (fun k => (s.slots[k]).isNone)

/-- The number of FREE stack slots. -/
def freeSlots (s : State) : Nat := (s.slots.toList.filter Option.isNone).length

end State

end Sys2Proof.Machine
end

