-- ==== Sys2Proof/Machine/Operands.lean ====
section
/-! DEFINITION. What frames carry: the fields of payloads in both directions, the sample word, the frame envelope and
its CRC (sections 9.1, 9.6 and 9.8; R163, R168, R177). "All multi-byte values are sent most significant byte
first." -/

namespace Sys2Proof.Machine

/-! ### Reading a payload -/

/-- The byte at a place of a payload. -/
def byteAt (p : List Byte) (i : Nat) : Nat := (p.getD i 0).toNat

/-- The 16-bit value at a place of a payload. -/
def halfAt (p : List Byte) (i : Nat) : Nat := byteAt p i * 256 + byteAt p (i + 1)

/-- The 32-bit value at a place of a payload. -/
def wordAt (p : List Byte) (i : Nat) : Word32 := BitVec.ofNat 32 (halfAt p i * 65536 + halfAt p (i + 2))

/-- A number as an index of a table of `n` entries, where it is one. -/
def asFin (n v : Nat) : Option (Fin n) := if h : v < n then some ⟨v, h⟩ else none

/-- The first `n` pieces of length `k` of a list. -/
def chunks {α : Type} (k : Nat) : Nat → List α → List (List α)
  | 0, _ => []
  | n + 1, l => l.take k :: chunks k n (l.drop k)

/-! ### Writing fields (R168) -/

/-- A number in one byte. -/
def enc8 (n : Nat) : List Byte := [BitVec.ofNat 8 n]

/-- A number in two bytes. -/
def enc16 (n : Nat) : List Byte := [BitVec.ofNat 8 (n / 256), BitVec.ofNat 8 n]

/-- A number in four bytes. -/
def enc32 (n : Nat) : List Byte := enc16 (n / 65536) ++ enc16 (n % 65536)

/-- A number in eight bytes. -/
def enc64 (n : Nat) : List Byte := enc32 (n / 4294967296) ++ enc32 (n % 4294967296)

/-- A 32-bit word. -/
def encWord (w : Word32) : List Byte := enc32 w.toNat

/-- A yes/no field: 1 for yes, 0 for no (R177). -/
def encBool (b : Bool) : List Byte := enc8 (if b then 1 else 0)

/-- An optional field: a presence byte, then the value, "carried as 0 when absent", which takes `width` bytes
(R168). -/
def encOption (width : Nat) : Option (List Byte) → List Byte
  | none => 0 :: List.replicate width 0
  | some bytes => 1 :: bytes

/-- A signed sample in two's complement at the read's width (section 9.8). -/
def encSample : SampleWidth → Int → List Byte
  | .w16, v => enc16 (BitVec.ofInt 16 v).toNat
  | .w24, v => enc8 ((BitVec.ofInt 24 v).toNat / 65536) ++ enc16 ((BitVec.ofInt 24 v).toNat % 65536)
  | .w32, v => enc32 (BitVec.ofInt 32 v).toNat

/-- Width of a sample in bits (R155). -/
def SampleWidth.bits : SampleWidth → Nat
  | .w16 => 16
  | .w24 => 24
  | .w32 => 32

/-! ### Named values, numbered from 0 in the order their rule lists them (R177; log entry 13) -/

/-- R177's table of outcome codes. -/
def Code.number : Code → Nat
  | .done => 0
  | .unknownKind => 1
  | .badLength => 2
  | .badValue => 3
  | .busy => 4
  | .fleetUndefined => 5
  | .pilotNotReady => 6
  | .pilotPinned => 7
  | .pilotState => 8
  | .pilotSequence => 9
  | .pilotIncomplete => 10
  | .intervalMismatch => 11
  | .t0OutOfRange => 12
  | .slipTooShort => 13
  | .tableFull => 14
  | .noStackSlot => 15
  | .listenMismatch => 16
  | .foldFull => 17
  | .vpUnknown => 18
  | .sweepUnknown => 19
  | .reportDuplicate => 20
  | .reportLate => 21
  | .tooLate => 22
  | .tagStale => 23
  | .slotState => 24

/-- R24: NORMAL, DEAD. -/
def MonitorState.number : MonitorState → Nat
  | .normal => 0
  | .dead => 1

/-- R40: EMPTY, FILLING, COMMITTING, READY. -/
def PilotPhase.number : PilotPhase → Nat
  | .empty => 0
  | .filling .. => 1
  | .committing .. => 2
  | .ready .. => 3

/-- R40: NONE, COMMITTED, ZERO_ENERGY, FILL_TIMEOUT, PURGED. -/
def PilotResult.number : PilotResult → Nat
  | .none => 0
  | .committed => 1
  | .zeroEnergy => 2
  | .fillTimeout => 3
  | .purged => 4

/-- R58: PLAIN, DIVERSITY. -/
def WeightMode.number : WeightMode → Nat
  | .plain => 0
  | .diversity => 1

/-- R58: REJECT, KEEP. -/
def QcPolicy.number : QcPolicy → Nat
  | .reject => 0
  | .keep => 1

/-- R58: PASS, FAIL. -/
def NoReport.number : NoReport → Nat
  | .pass => 0
  | .fail => 1

/-- R177: PENDING 0, PASS 1, FAIL 2, NOREPORT 3. -/
def QcOutcome.number : QcOutcome → Nat
  | .pending => 0
  | .pass => 1
  | .fail => 2
  | .noReport => 3

/-- R177: WAITING 0, READY 1, CORRELATING 2, MERGING 3. -/
def Stage.number : Stage → Nat
  | .waiting => 0
  | .ready => 1
  | .correlating _ => 2
  | .merging _ => 3

/-- R177: in the order of R78. -/
def SweepOutcome.number : SweepOutcome → Nat
  | .merged => 0
  | .rejectedQc => 1
  | .cancelled => 2
  | .droppedOverrun => 3
  | .droppedRestart => 4
  | .droppedClear => 5

/-- R98: IDLE, CORRELATING, MERGE_WAIT, MERGING. -/
def Lane.number : Lane → Nat
  | .idle => 0
  | .correlating _ => 1
  | .mergeWait .. => 2
  | .merging .. => 3

/-- R177: LINGER_EXPIRED 0, RECORDER_SEAL 1, FLEET_MOVED 2. -/
def SealCause.number : SealCause → Nat
  | .lingerExpired => 0
  | .recorderSeal => 1
  | .fleetMoved => 2

/-- R122: OPEN, LINGER, DRAINING, SEALED, HARVESTING follow FREE. -/
def StackPhase.number : StackPhase → Nat
  | .opened => 1
  | .linger _ => 2
  | .draining _ => 3
  | .sealed .. => 4
  | .harvesting _ => 5

/-- R122: the state of a stack slot, FREE being 0. -/
def slotStateNumber : Option Stack → Nat
  | none => 0
  | some st => st.phase.number

/-- R177: MEAN 0, SUM 1. -/
def ReadMode.number : ReadMode → Nat
  | .mean => 0
  | .sum => 1

/-! ### Requests with many fields (section 9.6) -/

/-- One record of a CHANNEL SET (section 2.2). -/
structure ChannelRecord where
  active : Nat
  label : Word32
  deadThreshold : Nat
  noiseThreshold : Nat
deriving DecidableEq, Repr

/-- A channel record's nine bytes: active (1), station label (4), dead threshold (2), noise threshold (2). -/
def readChannelRecord (b : List Byte) : ChannelRecord :=
  { active := byteAt b 0, label := wordAt b 1, deadThreshold := halfAt b 5, noiseThreshold := halfAt b 7 }

/-- One vibrator entry of a SWEEP REPORT (section 5.2). -/
structure VibratorEntry where
  id : Nat
  peakPhase : Nat
  meanPhase : Nat
  distortion : Nat
  force : Nat
deriving DecidableEq, Repr

/-- A vibrator entry's five 16-bit fields. -/
def readVibratorEntry (b : List Byte) : VibratorEntry :=
  { id := halfAt b 0, peakPhase := halfAt b 2, meanPhase := halfAt b 4, distortion := halfAt b 6, force := halfAt b 8 }

/-- The vibrator entries of a SWEEP REPORT's payload. -/
def readVibratorEntries (p : List Byte) : List VibratorEntry :=
  (chunks 10 (byteAt p 4) (p.drop 5)).map readVibratorEntry

/-- A sample word as the line interface sends it (section 9.8): raw sample, gain step, valid flag. -/
structure SampleWord where
  raw : Int
  gain : Nat
  valid : Bool
deriving DecidableEq, Repr

/-- A sample word's four bytes. Bits 6..2 of the last byte are ignored (section 9.8). -/
def readSampleWord (b : List Byte) : SampleWord :=
  { raw := (BitVec.ofNat 24 (byteAt b 0 * 65536 + halfAt b 1)).toInt, gain := byteAt b 3 % 4,
    valid := (b.getD 3 0).getLsbD 7 }

/-- The rows of sample words of a ROW BLOCK with `n` rows of `c` channels, row after row, channel 0 first
(section 1.3). -/
def readRows (n c : Nat) (p : List Byte) : List (List SampleWord) :=
  (chunks (4 * c) n (p.drop 7)).map (fun row => (chunks 4 c row).map readSampleWord)

/-! ### The frame (section 9.1) -/

/-- One bit of the CRC register's shift, least significant bit first (R163). -/
def crcBit (r : Word32) : Word32 := if r.getLsbD 0 then (r >>> 1) ^^^ 0xEDB88320#32 else r >>> 1

/-- One byte fed into the CRC register. -/
def crcByte (r : Word32) (b : Byte) : Word32 := crcBit^[8] (r ^^^ b.setWidth 32)

/-- The CRC-32 of R163. -/
def crc32 (bytes : List Byte) : Word32 := ~~~ (bytes.foldl crcByte 0xFFFFFFFF#32)

/-- The bytes of a frame: kind, frame tag, payload length, payload, CRC-32 (section 9.8). -/
def frameBytes (kind tag : Byte) (payload : List Byte) : List Byte :=
  let body := kind :: tag :: (enc16 payload.length ++ payload)
  body ++ encWord (crc32 body)

/-- The envelope check of R162 on received bytes: the frame where it passes. -/
def readFrame (b : List Byte) : Option Frame :=
  let p := halfAt b 2
  if 8 ≤ b.length ∧ p ≤ Config.payloadLimit ∧ b.length = 8 + p ∧ crc32 (b.take (4 + p)) = wordAt b (4 + p) then
    some { kind := b.getD 0 0, tag := b.getD 1 0, payload := (b.drop 4).take p }
  else none

/-- The check of the Spread Link, which also covers the kind and the STREAM START length (R175). -/
def readSpreadFrame (b : List Byte) : Option Frame :=
  match readFrame b with
  | none => none
  | some f => if f.kind = 1 ∨ (f.kind = 2 ∧ f.payload.length = 4) then some f else none

end Sys2Proof.Machine
end

