-- ==== Sys2Proof/Machine/Flags.lean ====
section
/-! DEFINITION. Sets and how messages carry them: alert causes (R178), latched flags (R24), fail sets (R63), edit
causes (R123), arithmetic and trace flags. "A set … is carried as a bit set, with member i in bit i" (section 9.6). -/

namespace Sys2Proof.Machine

/-- The eight alert causes (R178). -/
inductive Cause where
  | vpSealed
  | sweepDropped
  | channelChange
  | streamFault
  | linkError
  | pilotFault
  | slotsExhausted
  | qcFailed
deriving DecidableEq, Repr

/-- The bit a cause occupies in every message that carries a set of causes (R178). -/
def Cause.bit : Cause → Nat
  | .vpSealed => 0
  | .sweepDropped => 1
  | .channelChange => 2
  | .streamFault => 3
  | .linkError => 4
  | .pilotFault => 5
  | .slotsExhausted => 6
  | .qcFailed => 7

/-- The set of one cause. -/
def Cause.set (c : Cause) : CauseSet := BitVec.ofNat 8 (2 ^ c.bit)

/-- The set with its members given as truth values, member 0 first, as one byte. -/
def bitSet : List Bool → Nat
  | [] => 0
  | b :: l => (if b then 1 else 0) + 2 * bitSet l

/-- Latched flags in the order R24 lists them. -/
def Latched.byte (f : Latched) : List Byte := enc8 (bitSet [f.deadSeen, f.noisySeen, f.clipSeen, f.dropoutSeen])

/-- Fail set in the order R63 lists it. -/
def FailSet.byte (f : FailSet) : List Byte :=
  enc8 (bitSet [f.missing, f.phasePeak, f.phaseMean, f.distortion, f.force])

/-- Edit causes: bit 0 DEAD, bit 1 CLIP, bit 2 BURST (section 9.8). -/
def EditSet.byte (e : EditSet) : List Byte := enc8 (bitSet [e.dead, e.clip, e.burst])

/-- The empty fail set. -/
def FailSet.empty : FailSet :=
  { missing := false, phasePeak := false, phaseMean := false, distortion := false, force := false }

/-- The empty set of edit causes. -/
def EditSet.empty : EditSet := { dead := false, clip := false, burst := false }

/-- A fail set without members. -/
def FailSet.isEmpty (f : FailSet) : Bool := decide (f = FailSet.empty)

/-- The edit cause of a trace added to a set; INACTIVE is no edit (R104, R113). -/
def EditSet.add (e : EditSet) : TraceCause → EditSet
  | .inactive => e
  | .dead => { e with dead := true }
  | .clip => { e with clip := true }
  | .burst => { e with burst := true }

/-- The latches of one sample of a row that is not a gap row (R35). -/
def Latched.sample (f : Latched) (w : RingWord) : Latched :=
  { f with clipSeen := f.clipSeen || w.clipped, dropoutSeen := f.dropoutSeen || w.dropout }

/-- Does a settled QC outcome let the sweep proceed (R72)? -/
def qcProceeds (qc : QcOutcome) (policy : QcPolicy) (action : NoReport) : Bool :=
  match qc, policy, action with
  | .pending, _, _ => false
  | .pass, _, _ => true
  | .fail, .keep, _ => true
  | .fail, .reject, _ => false
  | .noReport, _, .pass => true
  | .noReport, .keep, .fail => true
  | .noReport, .reject, .fail => false

/-- Is a QC outcome a failing one: FAIL, or NOREPORT with no-report action FAIL (R77, R96)? -/
def qcFails (qc : QcOutcome) (action : NoReport) : Bool :=
  match qc, action with
  | .fail, _ => true
  | .noReport, .fail => true
  | _, _ => false

end Sys2Proof.Machine
end

