-- ==== Sys2Proof/Machine/Messages.lean ====
section
/-! DEFINITION. Messages of the part and their bytes (sections 9.6, 9.8), their production (R168 to R171, R173),
events with their raising sets (R179, R180), and the taking of requests (R166, R167). -/

namespace Sys2Proof.Machine

/-! ### Bytes of messages -/

/-- The payload of a SWEEP RESULT (section 9.6). The three counts are 0 where R78 gives none. -/
def SweepResult.payload (r : SweepResult) : List Byte :=
  let c : JobCounts := r.counts.getD { edited := 0, inactive := 0, saturated := 0 }
  encWord r.number ++ enc8 r.fleet ++ encWord r.vp ++ encWord r.t0 ++ enc8 r.slot ++ enc8 r.outcome.number ++
    enc8 r.stage.number ++ encBool r.dataComplete ++ enc8 r.qc.number ++ r.failSet.byte ++
    enc16 c.edited ++ enc16 c.inactive ++ enc32 c.saturated

/-- The payload of a RECORD HEADER (section 9.8). -/
def RecordHeader.payload (h : RecordHeader) : List Byte :=
  encWord h.vp ++ enc8 h.fleet ++ enc8 ((h.cause.map SealCause.number).getD 0) ++ enc8 h.fold ++ enc8 h.qcKept ++
    encWord h.serial ++ encWord h.qcRejected ++ encWord h.dropped ++ encWord (h.firstT0.getD 0) ++
    encWord (h.lastT0.getD 0) ++ encBool (decide (1 ≤ h.fold)) ++ enc8 (bitSet [h.corrSat]) ++ enc16 h.listen ++
    enc16 h.channels ++ enc8 h.interval ++ enc8 h.mode.number ++ enc8 h.shift ++ enc8 h.width.bits ++
    enc16 h.first ++ enc8 h.count

/-- The payload of a TRACE (section 9.8). -/
def TraceMessage.payload (t : TraceMessage) : List Byte :=
  enc16 t.channel ++ encWord t.label ++ enc8 t.accepted ++ enc8 t.edited ++ t.causes.byte ++
    enc8 (bitSet [t.isEmpty, t.outSat]) ++ enc32 t.weightSum ++ enc16 t.saturated ++
    t.samples.flatMap (encSample t.width)

/-- The kind of a message (section 9.6). -/
def Message.kind : Message → Byte
  | .reply .. => 128
  | .sweepResult .. => 129
  | .alert .. => 130
  | .recordHeader .. => 131
  | .trace .. => 132

/-- The frame tag of a message (R170). -/
def Message.tag : Message → Byte
  | .reply t .. => t
  | .sweepResult t _ => t
  | .alert t _ => t
  | .recordHeader t _ => t
  | .trace t _ => t

/-- The payload of a message (R168, section 9.6, section 9.8). -/
def Message.payload : Message → List Byte
  | .reply _ kind code result => kind :: (enc8 code.number ++ result)
  | .sweepResult _ r => r.payload
  | .alert _ pending => [pending]
  | .recordHeader _ h => h.payload
  | .trace _ t => t.payload

/-- The frame of a message, with its CRC (R163). -/
def Message.bytes (m : Message) : List Byte := frameBytes m.kind m.tag m.payload

/-! ### Production (R169, R170, R171, R173) -/

/-- A message joins the output queue, or is discarded at production while the link is down (R173). -/
def PartnerLink.push (l : PartnerLink) (m : Message) : PartnerLink :=
  if l.up then { l with output := l.output ++ [m] } else l

namespace State

/-- Replace the interface of a link that has requests. -/
def setPartner (s : State) (link : LinkId) (l : PartnerLink) : State :=
  match link with
  | .spread => s
  | .source => { s with source := l }
  | .record => { s with record := l }

/-- The REPLY to a request is handed to the output queue of the request's link (R168, R169). -/
def pushReply (s : State) (link : LinkId) (f : Frame) (code : Code) (result : List Byte) : State :=
  match link with
  | .spread => s
  | .source => { s with source := s.source.push (.reply f.tag f.kind code result) }
  | .record => { s with record := s.record.push (.reply f.tag f.kind code result) }

/-- A SWEEP RESULT is produced on the Source Link with its unsolicited sequence (R76, R170). -/
def sendResult (s : State) (r : SweepResult) : State :=
  { s with
    source := { s.source.push (.sweepResult s.source.sequence r) with sequence := s.source.sequence + 1 } }

/-- An ALERT with the pending set as it stands is produced on the Record Link: held during a read, discarded while
the link is down, else queued (R171, R173, R180). -/
def sendAlert (s : State) : State :=
  let m := Message.alert s.record.sequence s.alerts.pending
  match s.record.up, s.reading with
  | true, some _ =>
    { s with heldAlerts := s.heldAlerts ++ [m], record := { s.record with sequence := s.record.sequence + 1 } }
  | _, _ => { s with record := { s.record.push m with sequence := s.record.sequence + 1 } }

/-- The raising set of an event reaches the Alert Unit: every cause becomes pending, and one ALERT is produced if a
cause of it was not pending and is not masked (R179). -/
def raise (s : State) (c : CauseSet) : State :=
  let s1 := { s with alerts := { s.alerts with pending := s.alerts.pending ||| c } }
  if c &&& ~~~s.alerts.pending &&& ~~~s.alerts.mask = 0 then s1 else s1.sendAlert

end State

/-- An event in the making: the state, the causes raised so far (its raising set, R179), and the SWEEP RESULTs it
produces, in order (R78). -/
structure Event where
  st : State
  raised : CauseSet
  results : List SweepResult
deriving DecidableEq, Repr

namespace Event

/-- An event begins. -/
def start (s : State) : Event := { st := s, raised := 0, results := [] }

/-- A cause is raised in the event (R179). -/
def addCause (e : Event) (c : Cause) : Event := { e with raised := e.raised ||| c.set }

/-- A cause is raised if a condition holds. -/
def addCauseIf (e : Event) (b : Bool) (c : Cause) : Event := if b then e.addCause c else e

/-- The state changes within the event. -/
def change (e : Event) (f : State → State) : Event := { e with st := f e.st }

/-- The event ends: its SWEEP RESULTs are produced in order, and its raising set reaches the Alert Unit, once (R179; for a
ROW BLOCK with several reports, log entry 25). -/
def finish (e : Event) : State := (e.results.foldl State.sendResult e.st).raise e.raised

/-- The event of a request ends: the REPLY is produced first (R169). -/
def reply (e : Event) (link : LinkId) (f : Frame) (code : Code) (result : List Byte) : State :=
  finish { e with st := e.st.pushReply link f code result }

end Event

/-! ### Taking frames and requests -/

namespace State

/-- Take the oldest frame of the Spread Link's buffer (R5). -/
def takeSpread (s : State) : Option (Frame × State) :=
  match s.spread.input with
  | [] => none
  | f :: rest => some (f, { s with spread := { s.spread with input := rest } })

/-- Take the oldest frame of the Source Link's or Record Link's buffer. On the Record Link nothing is taken while a
read is in hand (R166). -/
def takeRequest (s : State) (link : LinkId) : Option (Frame × State) :=
  match link with
  | .spread => none
  | .source =>
    match s.source.input with
    | [] => none
    | f :: rest => some (f, { s with source := { s.source with input := rest } })
  | .record =>
    match s.reading, s.record.input with
    | some _, _ => none
    | none, [] => none
    | none, f :: rest => some (f, { s with record := { s.record with input := rest } })

/-- Bytes of result fields whose contents the spec does not state: free values (log entry 15). -/
def freeBytes (s : State) (n : Nat) : List Byte := (List.range n).map (fun i => Config.freeByte (s.freeCount + i))

/-- The free values used so far are not used again. -/
def useFree (s : State) (n : Nat) : State := { s with freeCount := s.freeCount + n }

end State

/-- The event of taking a request of one kind: the link's checks of R167, then the owning block's rule. Where the
oldest frame of the link is not of this kind, or nothing can be taken, the event does not take place (log entry
1). -/
def request (link : LinkId) (kind : Nat) (fits : List Byte → Bool) (serve : Frame → State → State) (s : State) :
    State :=
  match s.takeRequest link with
  | none => s
  | some (f, s1) =>
    if f.kind.toNat = kind then
      if fits f.payload then serve f s1 else s1.pushReply link f .badLength []
    else s

/-- The length check of a kind of fixed length (R167). -/
def fixedLength (n : Nat) (p : List Byte) : Bool := decide (p.length = n)

/-- The request kinds of a link (section 9.6). -/
def requestKinds : LinkId → List Nat
  | .spread => []
  | .source => [16, 17, 18, 19, 20, 21, 22, 23, 24]
  | .record => [32, 33, 34, 35, 36, 37, 38, 39, 40, 41, 42, 43, 44, 45, 46]

end Sys2Proof.Machine
end

