-- ==== Sys2Proof/Machine/Pilots.lean ====
section
/-! DEFINITION. The Pilot Library (chapter 3): PILOT OPEN, PART, CLOSE, QUERY and PURGE, the fill timer's expiry and
the commit completion. -/

namespace Sys2Proof.Machine

/-! ### Shared operations -/

/-- A slot enters EMPTY: the fields of R40 become absent and the fill timer stops. -/
def PilotSlot.toEmpty (p : PilotSlot) : PilotSlot := { p with phase := .empty }

/-- Declared length S, present in FILLING, COMMITTING and READY (R40). -/
def PilotPhase.length? : PilotPhase → Option Nat
  | .empty => none
  | .filling n .. => some n
  | .committing n .. => some n
  | .ready n .. => some n

/-- Interval code, present in FILLING, COMMITTING and READY (R40). -/
def PilotPhase.interval? : PilotPhase → Option (Fin 4)
  | .empty => none
  | .filling _ i _ _ => some i
  | .committing _ i _ => some i
  | .ready _ i _ _ => some i

/-- The samples held (R40). -/
def PilotPhase.samples : PilotPhase → List (BitVec 16)
  | .empty => []
  | .filling _ _ l _ => l
  | .committing _ _ l => l
  | .ready _ _ l _ => l

/-- Samples received, present in FILLING, COMMITTING and READY (R40). -/
def PilotPhase.received? : PilotPhase → Option Nat
  | .empty => none
  | p => some p.samples.length

/-- Energy, present in READY (R40). -/
def PilotPhase.energy? : PilotPhase → Option Nat
  | .ready _ _ _ e => some e
  | _ => none

/-- Fill timer, present in FILLING (R40). -/
def PilotPhase.fillTimer : PilotPhase → Option Timer
  | .filling _ _ _ t => some t
  | _ => none

/-- E, the sum of the squares of the samples as signed values (R47). -/
def pilotEnergy (samples : List (BitVec 16)) : Nat := (samples.map fun p => p.toInt.natAbs ^ 2).sum

/-- CS_auto = max(0, min(40, bitlength(E) - 17)) (R50). -/
def autoShift (energy : Nat) : Nat := min 40 (bitLength energy - 17)

/-- A sweep entry's pin on its pilot is taken (R52). -/
def State.pinPilot (s : State) (p : Fin Config.pilots) : State :=
  s.setPilot p { s.pilots[p] with pins := s.pilots[p].pins + 1 }

/-- A sweep entry's pin on its pilot is released (R52). -/
def State.unpinPilot (s : State) (p : Fin Config.pilots) : State :=
  s.setPilot p { s.pilots[p] with pins := s.pilots[p].pins - 1 }

/-! ### PILOT OPEN (R42) -/

/-- What the replies to PILOT OPEN carry of the slot after its number: state, S, interval code, samples received. -/
def pilotOpenFields (p : PilotSlot) : List Byte :=
  enc8 p.phase.number ++ encOption 2 (p.phase.length?.map enc16) ++
    encOption 1 (p.phase.interval?.map fun i => enc8 i) ++ encOption 2 (p.phase.received?.map enc16)

/-- A slot number above 15 names no slot: what the refusal carries of the slot is not stated, `n` free bytes (log
entry 15). -/
def refuseNoPilot (f : Frame) (s : State) (n : Nat) : State :=
  (s.pushReply .source f .badValue (enc8 (byteAt f.payload 0) ++ s.freeBytes n)).useFree n

/-- The slot's answer to a PILOT OPEN whose fields are in range: the outcome, and the slot after it. -/
def openPilot (s : State) (length : Nat) (interval : Fin 4) (p : PilotSlot) : Code × PilotSlot :=
  match p.phase with
  | .committing .. => (.busy, p)
  | .ready .. =>
    if 1 ≤ p.pins then (.pilotPinned, p)
    else (.done, { p with phase := .filling length interval [] (s.startTimer Config.fillTimerMs) })
  | _ => (.done, { p with phase := .filling length interval [] (s.startTimer Config.fillTimerMs) })

/-- PILOT OPEN at the Pilot Library. -/
def servePilotOpen (f : Frame) (s : State) : State :=
  let length := halfAt f.payload 1
  match asFin Config.pilots (byteAt f.payload 0) with
  | none => refuseNoPilot f s 9
  | some p =>
    match asFin 4 (byteAt f.payload 3) with
    | none => s.pushReply .source f .badValue (enc8 p ++ pilotOpenFields s.pilots[p])
    | some i =>
      if 1024 ≤ length ∧ length ≤ 16384 then
        let r := openPilot s length i s.pilots[p]
        (s.setPilot p r.2).pushReply .source f r.1 (enc8 p ++ pilotOpenFields r.2)
      else s.pushReply .source f .badValue (enc8 p ++ pilotOpenFields s.pilots[p])

/-- PILOT_OPEN. -/
def execPilotOpen (s : State) : Host.Outcome State Fault Refusal :=
  .next (request .source 16 (fixedLength 4) servePilotOpen s)

/-! ### PILOT PART (R43) -/

/-- The n samples a PILOT PART carries. -/
def readSamples (n : Nat) (p : List Byte) : List (BitVec 16) :=
  (chunks 2 n (p.drop 5)).map fun b => BitVec.ofNat 16 (halfAt b 0)

/-- PILOT PART is checked against the count the payload carries (R167). -/
def fitsPilotPart (p : List Byte) : Bool := decide (5 ≤ p.length ∧ p.length = 5 + 2 * halfAt p 3)

/-- The slot's answer to a PILOT PART with a count in range: the outcome, and the slot after it. -/
def storePart (s : State) (offset : Nat) (samples : List (BitVec 16)) (p : PilotSlot) : Code × PilotSlot :=
  match p.phase with
  | .filling n i held _ =>
    if offset ≠ held.length then (.pilotSequence, p)
    else if n < offset + samples.length then (.badLength, p)
    else (.done, { p with phase := .filling n i (held ++ samples) (s.startTimer Config.fillTimerMs) })
  | _ => (.pilotState, p)

/-- What the replies to PILOT PART carry of the slot after its number: state and samples received. -/
def pilotPartFields (p : PilotSlot) : List Byte :=
  enc8 p.phase.number ++ encOption 2 (p.phase.received?.map enc16)

/-- PILOT PART at the Pilot Library. -/
def servePilotPart (f : Frame) (s : State) : State :=
  let n := halfAt f.payload 3
  match asFin Config.pilots (byteAt f.payload 0) with
  | none => refuseNoPilot f s 4
  | some p =>
    if 1 ≤ n ∧ n ≤ 512 then
      let r := storePart s (halfAt f.payload 1) (readSamples n f.payload) s.pilots[p]
      (s.setPilot p r.2).pushReply .source f r.1 (enc8 p ++ pilotPartFields r.2)
    else s.pushReply .source f .badLength (enc8 p ++ pilotPartFields s.pilots[p])

/-- PILOT_PART. -/
def execPilotPart (s : State) : Host.Outcome State Fault Refusal :=
  .next (request .source 17 fitsPilotPart servePilotPart s)

/-! ### PILOT CLOSE (R44) -/

/-- The slot's answer to a PILOT CLOSE: the outcome, and the slot after it. -/
def closePilot (p : PilotSlot) : Code × PilotSlot :=
  match p.phase with
  | .filling n i held _ =>
    if held.length < n then (.pilotIncomplete, p) else (.done, { p with phase := .committing n i held })
  | _ => (.pilotState, p)

/-- PILOT CLOSE at the Pilot Library. The rule lists result fields for the accepted CLOSE alone: the slot number and
state COMMITTING. -/
def servePilotClose (f : Frame) (s : State) : State :=
  match asFin Config.pilots (byteAt f.payload 0) with
  | none => s.pushReply .source f .badValue []
  | some p =>
    let r := closePilot s.pilots[p]
    (s.setPilot p r.2).pushReply .source f r.1 (if r.1 = .done then enc8 p ++ enc8 r.2.phase.number else [])

/-- PILOT_CLOSE. -/
def execPilotClose (s : State) : Host.Outcome State Fault Refusal :=
  .next (request .source 18 (fixedLength 1) servePilotClose s)

/-! ### PILOT QUERY (R54) -/

/-- The result fields of PILOT QUERY. -/
def pilotQueryFields (k : Fin Config.pilots) (p : PilotSlot) : List Byte :=
  enc8 k ++ pilotOpenFields p ++ encOption 8 (p.phase.energy?.map enc64) ++
    encOption 1 (p.phase.energy?.map fun e => enc8 (autoShift e)) ++ enc16 p.generation.toNat ++ enc8 p.pins ++
    enc8 p.lastResult.number

/-- PILOT QUERY at the Pilot Library. -/
def servePilotQuery (f : Frame) (s : State) : State :=
  match asFin Config.pilots (byteAt f.payload 0) with
  | none => s.pushReply .source f .badValue []
  | some p => s.pushReply .source f .done (pilotQueryFields p s.pilots[p])

/-- PILOT_QUERY. -/
def execPilotQuery (s : State) : Host.Outcome State Fault Refusal :=
  .next (request .source 19 (fixedLength 1) servePilotQuery s)

/-! ### PILOT PURGE (R55) -/

/-- What a purge does with a named slot. -/
inductive PurgeAction where
  | purged
  | skipped
  | neither
deriving DecidableEq, Repr

/-- R55's table, by the slot's state. -/
def purgeAction (p : PilotSlot) : PurgeAction :=
  match p.phase with
  | .empty => .neither
  | .filling .. => .purged
  | .committing .. => .skipped
  | .ready .. => if p.pins = 0 then .purged else .skipped

/-- Is slot k a member of a carried 16-bit slot set (section 9.6)? -/
def inSlotSet (set : Nat) (k : Fin Config.pilots) : Bool := (BitVec.ofNat 16 set).getLsbD k

/-- A slot after a purge that names it or not. -/
def purgeSlot (named : Bool) (p : PilotSlot) : PilotSlot :=
  if named && decide (purgeAction p = .purged) then { p with phase := .empty, lastResult := .purged } else p

/-- All slots after a purge. -/
def purgeSlots (set : Nat) (v : Vector PilotSlot Config.pilots) : Vector PilotSlot Config.pilots :=
  zipFirstVec (fun p k => purgeSlot (inSlotSet set k) p) v (List.finRange Config.pilots)

/-- The named slots on which the purge acts in one way, as a 16-bit set. -/
def purgeSet (set : Nat) (v : Vector PilotSlot Config.pilots) (a : PurgeAction) : Nat :=
  bitSet ((List.finRange Config.pilots).map fun k => inSlotSet set k && decide (purgeAction v[k] = a))

/-- PILOT PURGE at the Pilot Library. -/
def servePilotPurge (f : Frame) (s : State) : State :=
  let set := halfAt f.payload 0
  { s with pilots := purgeSlots set s.pilots }.pushReply .source f .done
    (enc16 (purgeSet set s.pilots .purged) ++ enc16 (purgeSet set s.pilots .skipped))

/-- PILOT_PURGE. -/
def execPilotPurge (s : State) : Host.Outcome State Fault Refusal :=
  .next (request .source 20 (fixedLength 2) servePilotPurge s)

/-! ### Fill timer and commit -/

/-- The event of a slot's fill timer expiring (R45). A slot that is not FILLING has no fill timer to expire. -/
def fillTimeout (k : Fin Config.pilots) (s : State) : State :=
  match s.pilots[k].phase with
  | .filling .. =>
    (((Event.start s).change fun s =>
      s.setPilot k { s.pilots[k].toEmpty with lastResult := .fillTimeout }).addCause .pilotFault).finish
  | _ => s

/-- The commit of a slot completes (R48). A slot that is not COMMITTING has no commit to complete (log entry 1). -/
def commitCompletion (k : Fin Config.pilots) (s : State) : State :=
  match s.pilots[k].phase with
  | .committing n i samples =>
    if 1 ≤ pilotEnergy samples then
      s.setPilot k
        { s.pilots[k] with
          phase := .ready n i samples (pilotEnergy samples), generation := s.pilots[k].generation + 1,
          lastResult := .committed }
    else
      (((Event.start s).change fun s =>
        s.setPilot k { s.pilots[k].toEmpty with lastResult := .zeroEnergy }).addCause .pilotFault).finish
  | _ => s

/-- COMMIT_COMPLETION. -/
def execCommitCompletion (slot : Nat) (s : State) : Host.Outcome State Fault Refusal :=
  match asFin Config.pilots slot with
  | none => .next s
  | some k => .next (commitCompletion k s)

/-- DEVICE CLEAR at one slot: READY is kept; FILLING and COMMITTING go EMPTY without completion; every pin is
released (R57). -/
def clearPilot (p : PilotSlot) : PilotSlot :=
  match p.phase with
  | .filling .. => { p with phase := .empty, pins := 0 }
  | .committing .. => { p with phase := .empty, pins := 0 }
  | _ => { p with pins := 0 }

end Sys2Proof.Machine
end

