-- ==== Sys2Proof/Machine/Stacks.lean ====
section
/-! DEFINITION. The Stack Store (chapter 7): opening, joining, sealing and releasing stack slots, and the requests
VP END, STACK LIST, STACK STATUS, STACK SEAL and STACK RELEASE, with the linger timer's expiry. -/

namespace Sys2Proof.Machine

/-! ### Shared operations -/

/-- A slot in OPEN or LINGER, which can be joined and sealed (R126, R133). -/
def Stack.isJoinable (st : Stack) : Bool :=
  match st.phase with
  | .opened => true
  | .linger _ => true
  | _ => false

/-- A slot in SEALED or HARVESTING, which can be read and released (R139). -/
def Stack.isSealed (st : Stack) : Bool :=
  match st.phase with
  | .sealed .. => true
  | .harvesting _ => true
  | _ => false

/-- Seal cause, present in DRAINING, SEALED and HARVESTING (R122). -/
def Stack.sealCause (st : Stack) : Option SealCause :=
  match st.phase with
  | .draining c => some c
  | .sealed c _ => some c
  | .harvesting c => some c
  | _ => none

/-- Linger timer, present in LINGER (R122). -/
def Stack.lingerTimer (st : Stack) : Option Timer :=
  match st.phase with
  | .linger t => some t
  | _ => none

/-- Seal order number, present in SEALED (R122). -/
def Stack.sealOrder (st : Stack) : Option Word32 :=
  match st.phase with
  | .sealed _ n => some n
  | _ => none

/-- The per-channel record of a slot that opens (R123). -/
def ChannelStack.opening (listen : Nat) : ChannelStack :=
  { acc := List.replicate listen 0, weightSum := 0, accepted := 0, edited := 0, causes := EditSet.empty }

namespace State

/-- The fleet's open slot with its stack (R59). -/
def openStack (s : State) (fl : Fin Config.fleets) : Option (Fin Config.stackSlots × Stack) :=
  match s.fleets[fl].openSlot with
  | none => none
  | some k =>
    match s.slots[k] with
    | none => none
    | some st => some (k, st)

/-- The fleet's open slot becomes absent (R59, R133). -/
def clearOpenSlot (s : State) (fl : Fin Config.fleets) : State :=
  s.setFleet fl { s.fleets[fl] with openSlot := none }

/-- A slot opens with an announcement's key (R125). -/
def openSlot (s : State) (k : Fin Config.stackSlots) (fl : Fin Config.fleets) (vp : Word32) : State :=
  let listen := s.fleets[fl].params.listen
  let st : Stack :=
    { phase := .opened, fleet := fl, vp := vp, serial := s.stackSerials, listen := listen,
      interval := s.ingest.interval, channels := s.ingest.channels, fold := 0, pending := 1, qcKept := 0,
      qcRejected := 0, dropped := 0, firstT0 := none, lastT0 := none, tag := 1, corrSat := false,
      records := List.replicate s.ingest.channels (ChannelStack.opening listen) }
  let s1 := s.setSlot k (some st)
  let s2 := s1.setFleet fl { s1.fleets[fl] with openSlot := some k }
  { s2 with stackSerials := s.stackSerials + 1 }

/-- A slot is joined: pending and tag rise by one, and a LINGER slot's timer restarts with the fleet's linger time
as it stands (R126, R131). -/
def joinSlot (s : State) (k : Fin Config.stackSlots) (st : Stack) : State :=
  let phase : StackPhase :=
    match st.phase with
    | .linger _ => .linger (s.startTimer s.fleets[st.fleet].params.linger)
    | p => p
  s.setSlot k (some { st with phase := phase, pending := st.pending + 1, tag := st.tag + 1 })

end State

/-- A slot enters SEALED: it takes a seal order number, joins the end of the harvest queue, and VP_SEALED is raised
(R135). -/
def enterSealed (k : Fin Config.stackSlots) (cause : SealCause) (st : Stack) (e : Event) : Event :=
  (e.change fun s =>
    { s.setSlot k (some { st with phase := .sealed cause s.sealOrders }) with
      sealOrders := s.sealOrders + 1, harvestQueue := s.harvestQueue ++ [k] }).addCause .vpSealed

/-- A slot in OPEN or LINGER is sealed: the cause is recorded, the linger timer stops, the fleet's open slot becomes
absent, and the slot goes to DRAINING, or to SEALED where nothing is pending (R133). -/
def sealSlot (k : Fin Config.stackSlots) (cause : SealCause) (st : Stack) (e : Event) : Event :=
  let e1 := e.change (fun s => s.clearOpenSlot st.fleet)
  if 1 ≤ st.pending then e1.change (fun s => s.setSlot k (some { st with phase := .draining cause }))
  else enterSealed k cause st e1

/-- A slot becomes FREE and leaves the harvest queue: its fields and records are discarded (R138, R140). -/
def releaseSlot (k : Fin Config.stackSlots) (s : State) : State :=
  { s.setSlot k none with harvestQueue := removeFirst (fun j => decide (j = k)) s.harvestQueue }

/-! ### VP END (R130) -/

/-- The fleet's open slot and its VP ID, or none. -/
def openSlotFields : Option (Fin Config.stackSlots × Stack) → List Byte
  | none => encOption 5 none
  | some (k, st) => encOption 5 (some (enc8 k ++ encWord st.vp))

/-- What the reply to an accepted VP END carries of the slot as it stands after the request. -/
def vpEndFields (k : Fin Config.stackSlots) (sealed : Bool) : Option Stack → List Byte
  | none => enc8 k ++ enc8 (slotStateNumber none)
  | some st =>
    enc8 k ++ enc8 (slotStateNumber (some st)) ++ enc16 st.tag.toNat ++ enc8 st.fold ++ enc8 st.pending ++
      encBool sealed

/-- The fleet's open slot lingers, or its linger restarts; the tag rises by one (R130, R131). -/
def lingerSlot (k : Fin Config.stackSlots) (st : Stack) (ms : Nat) (s : State) : State :=
  s.setSlot k (some { st with phase := .linger (s.startTimer ms), tag := st.tag + 1 })

/-- VP END at the Stack Store. -/
def serveVpEnd (f : Frame) (s : State) : State :=
  match asFin Config.fleets (byteAt f.payload 0) with
  | none => s.pushReply .source f .badValue (openSlotFields none)
  | some fl =>
    match s.openStack fl with
    | none => s.pushReply .source f .vpUnknown (openSlotFields none)
    | some (k, st) =>
      if st.vp = wordAt f.payload 1 then
        if s.fleets[fl].params.linger = 0 then
          let e := sealSlot k .lingerExpired st (Event.start s)
          e.reply .source f .done (vpEndFields k true e.st.slots[k])
        else
          let s1 := lingerSlot k st s.fleets[fl].params.linger s
          s1.pushReply .source f .done (vpEndFields k false s1.slots[k])
      else s.pushReply .source f .vpUnknown (openSlotFields (some (k, st)))

/-- VP_END. -/
def execVpEnd (s : State) : Host.Outcome State Fault Refusal :=
  .next (request .source 24 (fixedLength 5) serveVpEnd s)

/-! ### Linger expiry (R131) -/

/-- The event of a slot's linger timer expiring: the slot is sealed LINGER_EXPIRED. A slot that does not linger has no
timer to expire. -/
def lingerExpiry (k : Fin Config.stackSlots) (s : State) : State :=
  match s.slots[k] with
  | none => s
  | some st =>
    match st.phase with
    | .linger _ => (sealSlot k .lingerExpired st (Event.start s)).finish
    | _ => s

/-! ### STACK LIST (R142) -/

/-- One slot's summary in STACK LIST, each field but number and state none where R122 makes it absent. -/
def stackSummary (k : Nat) (slot : Option Stack) : List Byte :=
  enc8 k ++ enc8 (slotStateNumber slot) ++
    encOption 1 (slot.map fun st => enc8 st.fleet) ++
    encOption 4 (slot.map fun st => encWord st.vp) ++
    encOption 4 (slot.map fun st => encWord st.serial) ++
    encOption 1 (slot.map fun st => enc8 st.fold) ++
    encOption 1 (slot.map fun st => enc8 st.pending) ++
    encOption 2 (slot.map fun st => enc16 st.tag.toNat) ++
    encOption 1 ((slot.bind Stack.sealCause).map fun c => enc8 c.number)

/-- One slot of the harvest queue: its number and seal order number. -/
def queueEntry (s : State) (k : Fin Config.stackSlots) : List Byte :=
  enc8 k ++ encWord ((s.slots[k].bind Stack.sealOrder).getD 0)

/-- The result fields of STACK LIST. Each list is preceded by its number (R168; log entry 11). -/
def stackListFields (s : State) : List Byte :=
  enc8 Config.stackSlots ++ (List.finRange Config.stackSlots).flatMap (fun (k : Fin Config.stackSlots) => stackSummary k s.slots[k]) ++
    enc8 s.freeSlots ++ enc8 s.harvestQueue.length ++ s.harvestQueue.flatMap (queueEntry s)

/-- STACK LIST at the Stack Store. -/
def serveStackList (f : Frame) (s : State) : State := s.pushReply .record f .done (stackListFields s)

/-- STACK_LIST. -/
def execStackList (s : State) : Host.Outcome State Fault Refusal :=
  .next (request .record 37 (fixedLength 0) serveStackList s)

/-! ### STACK STATUS (R143) -/

/-- One per-channel record in STACK STATUS. -/
def channelStackFields (c : Nat) (r : ChannelStack) : List Byte :=
  enc16 c ++ enc32 r.weightSum ++ enc8 r.accepted ++ enc8 r.edited ++ r.causes.byte

/-- The records of channels `first`, `first + 1`, … -/
def channelStackList (first : Nat) : List ChannelStack → List Byte
  | [] => []
  | r :: l => channelStackFields first r ++ channelStackList (first + 1) l

/-- The number of channels of a range that a slot has (R143, R148). -/
def effectiveCount (channels first count : Nat) : Nat := if channels ≤ first then 0 else min count (channels - first)

/-- The byte giving the number of channel records. One byte does not hold 256: that byte is a free value (log entry
15). -/
def recordNumber (s : State) (n : Nat) : List Byte := if n < 256 then enc8 n else s.freeBytes 1

/-- The channel records of STACK STATUS: present for a range on a slot that is not FREE. -/
def stackRangeFields (s : State) (st : Stack) : Option (Nat × Nat) → List Byte
  | none => []
  | some (first, count) =>
    let n := effectiveCount st.channels first count
    recordNumber s n ++ channelStackList first ((st.records.drop first).take n)

/-- The merge port: free, or the lane that holds it, and the number of lanes on its waiting list. A free port is carried
as an absent lane: presence byte 0 and 0 (log entry 12). -/
def portFields (p : MergePort) : List Byte :=
  encOption 1 (p.holder.map fun l => enc8 l) ++ enc8 p.waiting.length

/-- The result fields of STACK STATUS. "A FREE slot gives its state alone." -/
def stackStatusFields (s : State) (k : Fin Config.stackSlots) (range : Option (Nat × Nat)) : List Byte :=
  match s.slots[k] with
  | none => enc8 (slotStateNumber none)
  | some st =>
    enc8 (slotStateNumber (some st)) ++ enc8 st.fleet ++ encWord st.vp ++ encWord st.serial ++ enc16 st.listen ++
      enc8 st.interval ++ enc16 st.channels ++ enc8 st.fold ++ enc8 st.pending ++ enc8 st.qcKept ++
      encWord st.qcRejected ++ encWord st.dropped ++ encOption 4 (st.firstT0.map encWord) ++
      encOption 4 (st.lastT0.map encWord) ++ enc16 st.tag.toNat ++ enc8 (bitSet [st.corrSat]) ++
      encOption 1 (st.sealCause.map fun c => enc8 c.number) ++
      encOption 2 (st.lingerTimer.map fun t => enc16 t.length) ++
      encOption 4 (st.sealOrder.map encWord) ++ portFields s.ports[k] ++
      encOption 1 ((placeOf k s.harvestQueue).map enc8) ++ stackRangeFields s st range

/-- How many free values the reply of STACK STATUS uses: one where 256 records are carried. -/
def stackStatusFree (s : State) (k : Fin Config.stackSlots) : Option (Nat × Nat) → Nat
  | none => 0
  | some (first, count) =>
    match s.slots[k] with
    | none => 0
    | some st => if effectiveCount st.channels first count < 256 then 0 else 1

/-- STACK STATUS at the Stack Store. -/
def serveStackStatus (f : Frame) (s : State) : State :=
  let presence := byteAt f.payload 1
  let first := halfAt f.payload 2
  let count := halfAt f.payload 4
  match asFin Config.stackSlots (byteAt f.payload 0) with
  | none => s.pushReply .record f .badValue []
  | some k =>
    if presence = 0 then s.pushReply .record f .done (stackStatusFields s k none)
    else if presence = 1 then
      if first ≤ 1023 ∧ 1 ≤ count ∧ count ≤ 256 then
        (s.pushReply .record f .done (stackStatusFields s k (some (first, count)))).useFree
          (stackStatusFree s k (some (first, count)))
      else s.pushReply .record f .badValue []
    else s.pushReply .record f .badValue []

/-- STACK_STATUS. -/
def execStackStatus (s : State) : Host.Outcome State Fault Refusal :=
  .next (request .record 38 (fixedLength 6) serveStackStatus s)

/-! ### STACK SEAL (R136) -/

/-- What the reply to a STACK SEAL carries of the slot as it stands after the request. A FREE slot has its number and its
state (log entry 12). -/
def stackSealFields (k : Fin Config.stackSlots) : Option Stack → List Byte
  | none => enc8 k ++ enc8 (slotStateNumber none)
  | some st =>
    enc8 k ++ enc8 (slotStateNumber (some st)) ++ enc8 st.fleet ++ encWord st.vp ++ encWord st.serial ++
      enc16 st.tag.toNat ++ enc8 st.fold ++ enc8 st.pending ++
      encOption 1 (st.sealCause.map fun c => enc8 c.number)

/-- The number of result bytes a reply carries where the spec does not state them, within the frame payload limit
(log entry 15). -/
def freeFieldCount (s : State) : Nat :=
  min (Config.freeLength s.freeCount) (Config.payloadLimit - 3)

/-- STACK SEAL at the Stack Store. A slot number above 11 names no slot, so what the refusal carries of "the slot" is
not stated: free values (log entry 15). -/
def serveStackSeal (f : Frame) (s : State) : State :=
  let presence := byteAt f.payload 1
  match asFin Config.stackSlots (byteAt f.payload 0) with
  | none =>
    (s.pushReply .record f .badValue (enc8 (byteAt f.payload 0) ++ s.freeBytes (freeFieldCount s))).useFree
      (freeFieldCount s + 1)
  | some k =>
    if presence ≤ 1 then
      match s.slots[k] with
      | none => s.pushReply .record f .slotState (stackSealFields k none)
      | some st =>
        if st.isJoinable then
          if presence = 1 ∧ halfAt f.payload 2 ≠ st.tag.toNat then
            s.pushReply .record f .tagStale (stackSealFields k (some st))
          else
            let e := sealSlot k .recorderSeal st (Event.start s)
            e.reply .record f .done (stackSealFields k e.st.slots[k])
        else s.pushReply .record f .slotState (stackSealFields k (some st))
    else s.pushReply .record f .badValue (stackSealFields k s.slots[k])

/-- STACK_SEAL. -/
def execStackSeal (s : State) : Host.Outcome State Fault Refusal :=
  .next (request .record 39 (fixedLength 4) serveStackSeal s)

/-! ### STACK RELEASE (R140) -/

/-- STACK RELEASE at the Stack Store. -/
def serveStackRelease (f : Frame) (s : State) : State :=
  match asFin Config.stackSlots (byteAt f.payload 0) with
  | none => s.pushReply .record f .badValue []
  | some k =>
    match s.slots[k] with
    | none => s.pushReply .record f .slotState []
    | some st =>
      if st.isSealed then
        (releaseSlot k s).pushReply .record f .done
          (enc8 k ++ enc8 (slotStateNumber (some st)) ++ encWord st.serial)
      else s.pushReply .record f .slotState []

/-- STACK_RELEASE. -/
def execStackRelease (s : State) : Host.Outcome State Fault Refusal :=
  .next (request .record 41 (fixedLength 1) serveStackRelease s)

end Sys2Proof.Machine
end

