-- ==== Sys2Proof/Machine/Admission.lean ====
section
/-! DEFINITION. The Sweep Admission Unit (chapters 4 and 5): fleet records, SWEEP ANNOUNCE, resolution, the ring's
reports, SWEEP REPORT, the report timer and SWEEP CANCEL. -/

namespace Sys2Proof.Machine

/-! ### Stages -/

/-- Stage MERGING (R63). -/
def Stage.isMerging : Stage → Bool
  | .merging _ => true
  | _ => false

/-- An entry that a drop reaches: WAITING, READY or CORRELATING (R79). -/
def SweepEntry.isDroppable (e : SweepEntry) : Bool := !e.stage.isMerging

/-- The lane of an entry, present while CORRELATING or MERGING (R63). -/
def SweepEntry.lane (e : SweepEntry) : Option (Fin Config.lanes) :=
  match e.stage with
  | .correlating l => some l
  | .merging l => some l
  | _ => none

/-- The settled outcome lets the sweep proceed (R72). -/
def SweepEntry.proceeds (e : SweepEntry) : Bool := qcProceeds e.qc e.copy.policy e.copy.noReport

/-- The settled outcome rejects the sweep (R72, R95). -/
def SweepEntry.isRejected (e : SweepEntry) : Bool := decide (e.qc ≠ .pending) && !e.proceeds

namespace State

/-- The entry with a sweep number. -/
def findSweep (s : State) (n : Word32) : Option SweepEntry := s.sweeps.find? (fun e => decide (e.number = n))

/-- Change the entry with a sweep number. -/
def updateSweep (s : State) (n : Word32) (f : SweepEntry → SweepEntry) : State :=
  { s with sweeps := s.sweeps.map fun e => if e.number = n then f e else e }

end State

/-! ### Resolution (R76, R77) -/

/-- What a resolution other than DROPPED_CLEAR does to the slot-wide counts of its stack: pending -1, tag +1, and the
count of the outcome (R76, R77). The fold and qc_kept of MERGED are part of the merge (R114). -/
def Stack.resolveCount (st : Stack) (out : SweepOutcome) : Stack :=
  let base : Stack := { st with pending := st.pending - 1, tag := st.tag + 1 }
  match out with
  | .rejectedQc => { base with qcRejected := st.qcRejected + 1 }
  | .cancelled => { base with dropped := st.dropped + 1 }
  | .droppedOverrun => { base with dropped := st.dropped + 1 }
  | .droppedRestart => { base with dropped := st.dropped + 1 }
  | .merged => base
  | .droppedClear => base

/-- The stack slot's part of a resolution: the counts, and the way from DRAINING to SEALED when nothing is pending any
more (R76, R134). -/
def resolveStack (k : Fin Config.stackSlots) (out : SweepOutcome) (e : Event) : Event :=
  match e.st.slots[k] with
  | none => e
  | some st =>
    let st1 := st.resolveCount out
    match st1.phase with
    | .draining c =>
      if st1.pending = 0 then enterSealed k c st1 e else e.change (fun s => s.setSlot k (some st1))
    | _ => e.change (fun s => s.setSlot k (some st1))

/-- The SWEEP RESULT of an entry (R78). -/
def SweepEntry.result (e : SweepEntry) (out : SweepOutcome) (counts : Option JobCounts) : SweepResult :=
  { number := e.number, fleet := e.fleet, vp := e.vp, t0 := e.t0, slot := e.slot, outcome := out, stage := e.stage,
    dataComplete := e.dataComplete, qc := e.qc, failSet := e.failSet, counts := counts }

/-- The lane job of a CORRELATING entry is aborted: the lane returns to IDLE (R117). -/
def abortJob (e : SweepEntry) (s : State) : State :=
  match e.stage with
  | .correlating l => s.setLane l .idle
  | _ => s

/-- The entry leaves the table, its pin is released and its job, if CORRELATING, is aborted (R76, R52, R117). -/
def removeEntry (e : SweepEntry) (s : State) : State :=
  abortJob e ({ s with sweeps := removeFirst (fun x => decide (x.number = e.number)) s.sweeps }.unpinPilot e.pilot)

/-- Resolution of an entry: it leaves the table with one SWEEP RESULT, and its stack slot changes but for
DROPPED_CLEAR (R76, R77). -/
def resolve (out : SweepOutcome) (counts : Option JobCounts) (e : SweepEntry) (ev : Event) : Event :=
  let ev1 := ev.change (removeEntry e)
  let ev2 : Event := { ev1 with results := ev1.results ++ [e.result out counts] }
  if out = .droppedClear then ev2 else resolveStack e.slot out ev2

/-- Every entry that satisfies a condition is resolved, oldest acceptance first (R78). -/
def resolveAll (p : SweepEntry → Bool) (out : SweepOutcome) (ev : Event) : Event :=
  (ev.st.sweeps.filter p).foldl (fun ev e => resolve out none e ev) ev

/-- Drops: the entries that satisfy a condition are resolved, and SWEEP_DROPPED is raised once if there is one (R80,
R81, R82). -/
def dropAll (p : SweepEntry → Bool) (out : SweepOutcome) (ev : Event) : Event :=
  (resolveAll p out ev).addCauseIf (ev.st.sweeps.any p) .sweepDropped

/-! ### The ring's reports -/

/-- Departure report of the row with SSN O (R80). The results of one report are in table order; those of a block's
several reports are in row order (log entry 25). -/
def departureReport (o : Ssn) (ev : Event) : Event :=
  dropAll (fun e => e.isDroppable && ssnAtOrBefore e.t0 o) .droppedOverrun ev

/-- First arrival into an empty ring: WAITING entries whose T0 is not at or after the arriving SSN are dropped
(R81). -/
def firstArrival (n : Ssn) (ev : Event) : Event :=
  dropAll (fun e => decide (e.stage = .waiting) && !ssnAtOrBefore n e.t0) .droppedRestart ev

/-- One entry at an arrival report: data complete is set at its data-complete row, and the report timer starts while
QC is PENDING (R73, R92); a settled outcome that lets it proceed makes it READY (R72). -/
def SweepEntry.arrive (s : State) (n : Ssn) (e : SweepEntry) : SweepEntry :=
  if e.dataRow = n ∧ e.dataComplete = false then
    { e with
      dataComplete := true
      timer := if e.qc = .pending then some (s.startTimer e.copy.reportTimeout) else e.timer
      stage := if e.proceeds && decide (e.stage = .waiting) then .ready else e.stage }
  else e

/-- The arrival report of the row with SSN N (R73), after the first-arrival rule where the ring was empty (R81). An
entry that R72's table resolves at its data-complete row is resolved REJECTED_QC (log entry 21). -/
def arrivalReport (n : Ssn) (wasEmpty : Bool) (ev : Event) : Event :=
  let ev1 := if wasEmpty then firstArrival n ev else ev
  let rejected : SweepEntry → Bool := fun e =>
    decide (e.dataRow = n) && e.dataComplete && decide (e.stage = .waiting) && e.isRejected
  let ev2 := ev1.change fun s => { s with sweeps := s.sweeps.map (SweepEntry.arrive s n) }
  resolveAll rejected .rejectedQc ev2

/-- Every fleet's last accepted T0 becomes absent (R82, R2, R83). -/
def clearSlip (s : State) : State := { s with fleets := mapVec (fun f => { f with lastT0 := none }) s.fleets }

/-- Restart report (R82). -/
def restartReport (ev : Event) : Event :=
  (dropAll SweepEntry.isDroppable .droppedRestart ev).change clearSlip

/-! ### Fleet records (R58 to R62) -/

/-- The parameter fields as FLEET SET carries them, clamped (R60). -/
def readFleetParams (p : List Byte) : FleetParams :=
  { vibrators := clamp 1 6 (byteAt p 2), listen := clamp 256 8192 (halfAt p 3),
    shift := if byteAt p 5 = 255 then none else some (clamp 0 40 (byteAt p 5)),
    weight := if byteAt p 6 = 0 then .plain else .diversity, burst := clamp 0 1073741824 (wordAt p 7).toNat,
    clipLimit := clamp 0 255 (halfAt p 11), peakPhase := clamp 0 1800 (halfAt p 13),
    meanPhase := clamp 0 1800 (halfAt p 15), distortion := clamp 0 1000 (halfAt p 17),
    minForce := clamp 0 200 (halfAt p 19), policy := if byteAt p 21 = 0 then .reject else .keep,
    noReport := if byteAt p 22 = 0 then .pass else .fail, reportTimeout := clamp 100 30000 (halfAt p 23),
    linger := clamp 0 10000 (halfAt p 25), minSlip := clamp 0 32767 (halfAt p 27) }

/-- The two-valued fields of FLEET SET carry 0 or 1 (R60, check 3). -/
def fleetCodesValid (p : List Byte) : Bool :=
  decide (byteAt p 1 ≤ 1 ∧ byteAt p 6 ≤ 1 ∧ byteAt p 21 ≤ 1 ∧ byteAt p 22 ≤ 1)

/-- The parameter fields but for the defined flag, in the order of R58. `narrow` carries clip limit and minimum force,
whose width differs between the replies of R60 and R62 (R168; log entry 14). -/
def fleetParamFields (narrow : Nat → List Byte) (q : FleetParams) : List Byte :=
  enc8 q.vibrators ++ enc16 q.listen ++ enc8 (q.shift.getD 255) ++ enc8 q.weight.number ++ enc32 q.burst ++
    narrow q.clipLimit ++ enc16 q.peakPhase ++ enc16 q.meanPhase ++ enc16 q.distortion ++ narrow q.minForce ++
    enc8 q.policy.number ++ enc8 q.noReport.number ++ enc16 q.reportTimeout ++ enc16 q.linger ++ enc16 q.minSlip

/-- The record as FLEET SET's reply carries it: every parameter field at the width R60 gives it, and the two dynamic
fields. -/
def fleetSetFields (fl : Fin Config.fleets) (r : Fleet) : List Byte :=
  enc8 fl ++ encBool r.defined ++ fleetParamFields enc16 r.params ++ encOption 4 (r.lastT0.map encWord) ++
    encOption 1 (r.openSlot.map fun k => enc8 k)

/-- FLEET SET at the Sweep Admission Unit. "On refusal it carries no record." -/
def serveFleetSet (f : Frame) (s : State) : State :=
  match asFin Config.fleets (byteAt f.payload 0) with
  | none => s.pushReply .record f .badValue (enc8 (byteAt f.payload 0))
  | some fl =>
    if fleetCodesValid f.payload then
      let r : Fleet :=
        { s.fleets[fl] with defined := decide (byteAt f.payload 1 = 1), params := readFleetParams f.payload }
      (s.setFleet fl r).pushReply .record f .done (fleetSetFields fl r)
    else s.pushReply .record f .badValue (enc8 fl)

/-- FLEET_SET. -/
def execFleetSet (s : State) : Host.Outcome State Fault Refusal :=
  .next (request .record 35 (fixedLength 29) serveFleetSet s)

/-- The record as FLEET READ carries it, the open slot "and with it the VP ID of that slot" (R62). R62 gives no widths,
so clip limit 0..255 and minimum force 0..200 take one byte each (R168). -/
def fleetReadFields (s : State) (fl : Fin Config.fleets) : List Byte :=
  fleetParamFields enc8 s.fleets[fl].params ++ encBool s.fleets[fl].defined ++
    encOption 4 (s.fleets[fl].lastT0.map encWord) ++ openSlotFields (s.openStack fl)

/-- FLEET READ at the Sweep Admission Unit. -/
def serveFleetRead (f : Frame) (s : State) : State :=
  match asFin Config.fleets (byteAt f.payload 0) with
  | none => s.pushReply .record f .badValue []
  | some fl => s.pushReply .record f .done (fleetReadFields s fl)

/-- FLEET_READ. -/
def execFleetRead (s : State) : Host.Outcome State Fault Refusal :=
  .next (request .record 36 (fixedLength 1) serveFleetRead s)

/-! ### SWEEP ANNOUNCE (R65 to R71) -/

/-- T0 bounds (R66). -/
def t0InBounds (s : State) (t0 : Ssn) : Bool :=
  match s.oldest, s.newest with
  | some o, some n => ssnAtOrBefore o t0 && decide (ssnDistance t0 n ≤ Config.leadRows)
  | _, _ => true

/-- Slip check (R67). -/
def slipPasses (r : Fleet) (t0 : Ssn) : Bool :=
  match r.lastT0 with
  | none => true
  | some last => decide ((max 1 r.params.minSlip : Int) ≤ ssnDistance t0 last)

/-- What the stack match finds (R68). -/
inductive StackMatch where
  | join (k : Fin Config.stackSlots) (st : Stack)
  | fresh (k : Fin Config.stackSlots)
  | refuse (code : Code)
deriving DecidableEq, Repr

/-- Case 2 of R68: a FREE slot is needed. -/
def matchFree (s : State) : StackMatch :=
  match s.firstFree with
  | none => .refuse .noStackSlot
  | some k => .fresh k

/-- The stack match (R68). -/
def stackMatch (s : State) (fl : Fin Config.fleets) (vp : Word32) : StackMatch :=
  match s.openStack fl with
  | none => matchFree s
  | some (k, st) =>
    if st.vp = vp then
      if st.fold + st.pending < Config.largestFold then
        if s.fleets[fl].params.listen = st.listen then .join k st else .refuse .listenMismatch
      else .refuse .foldFull
    else matchFree s

/-- The resolved correlation shift: a fixed shift as it stands, or the pilot's AUTO shift (R70). -/
def resolveShift (shift : Option Nat) (energy : Nat) : Nat := shift.getD (autoShift energy)

/-- The parameter copy of an entry (R70). -/
def copyParams (q : FleetParams) (energy : Nat) : SweepCopy :=
  { listen := q.listen, shift := resolveShift q.shift energy, weight := q.weight, burst := q.burst,
    clipLimit := q.clipLimit, peakPhase := q.peakPhase, meanPhase := q.meanPhase, distortion := q.distortion,
    minForce := q.minForce, vibrators := q.vibrators, policy := q.policy, noReport := q.noReport,
    reportTimeout := q.reportTimeout }

/-- The data-complete row T0+S+L-2 (R63). -/
def dataCompleteRow (t0 : Ssn) (length listen : Nat) : Ssn := t0 + BitVec.ofNat 32 (length + listen - 2)

/-- Is a data-complete row in the ring already (R69, step 6)? -/
def inRing (s : State) (row : Ssn) : Bool :=
  match s.newest with
  | none => false
  | some n => ssnAtOrBefore row n

/-- The entry an accepted announcement creates (R69 steps 4 and 6, R70, R92). -/
def newEntry (s : State) (fl : Fin Config.fleets) (vp : Word32) (slot : Fin Config.stackSlots)
    (p : Fin Config.pilots) (t0 : Ssn) (length energy : Nat) : SweepEntry :=
  let q := s.fleets[fl].params
  let row := dataCompleteRow t0 length q.listen
  { number := s.sweepCounter, fleet := fl, vp := vp, slot := slot, pilot := p, t0 := t0, pilotLength := length,
    dataRow := row, copy := copyParams q energy, dataComplete := inRing s row, qc := .pending,
    failSet := FailSet.empty, stage := .waiting,
    timer := if inRing s row then some (s.startTimer q.reportTimeout) else none }

/-- Steps 3 to 6 of R69: the pin, the entry, the sweep number counter and the slip position. -/
def addSweep (entry : SweepEntry) (s : State) : State :=
  let s1 := s.pinPilot entry.pilot
  let s2 := s1.setFleet entry.fleet { s1.fleets[entry.fleet] with lastT0 := some entry.t0 }
  { s2 with sweeps := s2.sweeps ++ [entry], sweepCounter := s2.sweepCounter + 1 }

/-- Step 1 of R69: the fleet's open slot, if it holds a different VP ID, is sealed FLEET_MOVED. -/
def sealMoved (fl : Fin Config.fleets) (vp : Word32) (e : Event) : Event :=
  match e.st.openStack fl with
  | none => e
  | some (k, st) => if st.vp = vp then e else sealSlot k .fleetMoved st e

/-- The slot an announcement seals FLEET_MOVED, or none (R71). -/
def movedSlot (s : State) (fl : Fin Config.fleets) (vp : Word32) : Option (Fin Config.stackSlots) :=
  match s.openStack fl with
  | none => none
  | some (k, st) => if st.vp = vp then none else some k

/-- The reply fields of an accepted announcement (R71). The slot "opened" is carried as 0, "joined" as 1 (log entry
13). -/
def announceFields (entry : SweepEntry) (joined : Bool) (moved : Option (Fin Config.stackSlots)) : List Byte :=
  encWord entry.number ++ enc8 entry.slot ++ enc8 (if joined then 1 else 0) ++ enc8 entry.copy.shift ++
    encWord entry.dataRow ++ encBool entry.dataComplete ++ encOption 1 (moved.map fun k => enc8 k)

/-- The ring's bounds in the reply to a refused announcement (R71). -/
def ringBounds (s : State) : List Byte := encOption 4 (s.oldest.map encWord) ++ encOption 4 (s.newest.map encWord)

/-- An announcement that joins is accepted (R69, Case 1). -/
def acceptJoin (f : Frame) (k : Fin Config.stackSlots) (st : Stack) (entry : SweepEntry) (s : State) : State :=
  (addSweep entry (s.joinSlot k st)).pushReply .source f .done (announceFields entry true none)

/-- An announcement that opens is accepted (R69, Case 2). -/
def acceptOpen (f : Frame) (k : Fin Config.stackSlots) (entry : SweepEntry) (s : State) : State :=
  (((sealMoved entry.fleet entry.vp (Event.start s)).change fun s => s.openSlot k entry.fleet entry.vp).change
      (addSweep entry)).reply .source f .done
    (announceFields entry false (movedSlot s entry.fleet entry.vp))

/-- A refused announcement: the outcome code and the ring's bounds, and SLOTS_EXHAUSTED for NO_STACK_SLOT (R65, R68,
R71). -/
def refuseAnnounce (f : Frame) (code : Code) (s : State) : State :=
  ((Event.start s).addCauseIf (decide (code = .noStackSlot)) .slotsExhausted).reply .source f code (ringBounds s)

/-- Check 8 of R65 and what follows it. -/
def announceStack (f : Frame) (fl : Fin Config.fleets) (p : Fin Config.pilots) (length energy : Nat) (vp : Word32)
    (t0 : Ssn) (s : State) : State :=
  match stackMatch s fl vp with
  | .refuse c => refuseAnnounce f c s
  | .join k st => acceptJoin f k st (newEntry s fl vp k p t0 length energy) s
  | .fresh k => acceptOpen f k (newEntry s fl vp k p t0 length energy) s

/-- Checks 3 to 7 of R65: the first that fails, if one does; the pilot is READY with the given interval code. -/
def announceRefusal (s : State) (fl : Fin Config.fleets) (interval : Fin 4) (t0 : Ssn) : Option Code :=
  if interval ≠ s.ingest.interval then some .intervalMismatch
  else if t0InBounds s t0 = false then some .t0OutOfRange
  else if slipPasses s.fleets[fl] t0 = false then some .slipTooShort
  else if Config.sweepEntries ≤ s.sweeps.length then some .tableFull
  else none

/-- SWEEP ANNOUNCE at the Sweep Admission Unit: the checks of R65 in order. -/
def serveSweepAnnounce (f : Frame) (s : State) : State :=
  let vp := wordAt f.payload 1
  let t0 := wordAt f.payload 6
  match asFin Config.fleets (byteAt f.payload 0), asFin Config.pilots (byteAt f.payload 5) with
  | some fl, some p =>
    if s.fleets[fl].defined then
      match s.pilots[p].phase with
      | .ready length interval _ energy =>
        match announceRefusal s fl interval t0 with
        | some c => refuseAnnounce f c s
        | none => announceStack f fl p length energy vp t0 s
      | _ => refuseAnnounce f .pilotNotReady s
    else refuseAnnounce f .fleetUndefined s
  | _, _ => refuseAnnounce f .badValue s

/-- SWEEP_ANNOUNCE. -/
def execSweepAnnounce (s : State) : Host.Outcome State Fault Refusal :=
  .next (request .source 21 (fixedLength 10) serveSweepAnnounce s)

/-! ### SWEEP REPORT (R85 to R91) -/

/-- The measured fields clamped before they are tested (R86). -/
def VibratorEntry.clamped (v : VibratorEntry) : VibratorEntry :=
  { v with
    peakPhase := clamp 0 1800 v.peakPhase, meanPhase := clamp 0 1800 v.meanPhase,
    distortion := clamp 0 1000 v.distortion, force := clamp 0 200 v.force }

/-- The distinct entries: the first carried for each vibrator id (R88). `seen` are the ids that have appeared. -/
def distinctEntries (seen : List Nat) : List VibratorEntry → List VibratorEntry
  | [] => []
  | v :: l => if seen.contains v.id then distinctEntries seen l else v :: distinctEntries (v.id :: seen) l

/-- The fail set of a report (R88, R89). -/
def evaluateReport (q : SweepCopy) (entries : List VibratorEntry) : FailSet :=
  let d := (distinctEntries [] entries).map VibratorEntry.clamped
  { missing := decide (d.length < q.vibrators)
    phasePeak := d.any (fun v => decide (q.peakPhase < v.peakPhase))
    phaseMean := d.any (fun v => decide (q.meanPhase < v.meanPhase))
    distortion := d.any (fun v => decide (q.distortion < v.distortion))
    force := d.any (fun v => decide (v.force < q.minForce)) }

/-- The entry once its QC outcome is settled: the timer is absent, and at data complete a sweep that may proceed is
READY (R72, R90, R93). -/
def SweepEntry.settle (e : SweepEntry) (qc : QcOutcome) (fails : FailSet) : SweepEntry :=
  let e1 : SweepEntry := { e with qc := qc, failSet := fails, timer := none }
  { e1 with stage := if e1.dataComplete && e1.proceeds && decide (e1.stage = .waiting) then .ready else e1.stage }

/-- The event in which an entry's QC outcome is settled: QC_FAILED for a failing outcome (R96), and the resolution
REJECTED_QC that the policy asks for (R95). -/
def settleSweep (old : SweepEntry) (new : SweepEntry) (ev : Event) : Event :=
  let ev1 := (ev.change fun s => s.updateSweep old.number (fun _ => new)).addCauseIf
    (qcFails new.qc new.copy.noReport) .qcFailed
  if new.isRejected then resolve .rejectedQc none new ev1 else ev1

/-- SWEEP REPORT is checked against the count the payload carries (R167). -/
def fitsSweepReport (p : List Byte) : Bool := decide (5 ≤ p.length ∧ p.length = 5 + 10 * byteAt p 4)

/-- What a reply to a SWEEP REPORT that finds its entry carries after the sweep number (R91); RESOLVED is stage 4
(R168). -/
def reportFields (e : SweepEntry) (resolved : Bool) : List Byte :=
  enc8 e.qc.number ++ e.failSet.byte ++ enc8 (if resolved then 4 else e.stage.number) ++ encBool e.dataComplete

/-- A SWEEP REPORT accepted for an entry (R87, R90, R91). -/
def acceptReport (f : Frame) (e : SweepEntry) (entries : List VibratorEntry) (s : State) : State :=
  let fails := evaluateReport e.copy entries
  let new := e.settle (if fails.isEmpty then .pass else .fail) fails
  (settleSweep e new (Event.start s)).reply .source f .done
    (encWord e.number ++ reportFields new new.isRejected ++ enc8 (distinctEntries [] entries).length)

/-- SWEEP REPORT at the Sweep Admission Unit: the checks of R85 in order. -/
def serveSweepReport (f : Frame) (s : State) : State :=
  let n := byteAt f.payload 4
  let number := wordAt f.payload 0
  let entries := readVibratorEntries f.payload
  if n < 1 ∨ 8 < n then s.pushReply .source f .badLength (encWord number)
  else if entries.any (fun v => decide (15 < v.id)) then s.pushReply .source f .badValue (encWord number)
  else
    match s.findSweep number with
    | none => s.pushReply .source f .sweepUnknown (encWord number)
    | some e =>
      match e.qc with
      | .pass => s.pushReply .source f .reportDuplicate (encWord number ++ reportFields e false)
      | .fail => s.pushReply .source f .reportDuplicate (encWord number ++ reportFields e false)
      | .noReport => s.pushReply .source f .reportLate (encWord number ++ reportFields e false)
      | .pending => acceptReport f e entries s

/-- SWEEP_REPORT. -/
def execSweepReport (s : State) : Host.Outcome State Fault Refusal :=
  .next (request .source 22 fitsSweepReport serveSweepReport s)

/-! ### Report timer (R93) -/

/-- The event of an entry's report timer expiring. An entry without a running timer has none to expire. -/
def reportTimerExpiry (n : Word32) (s : State) : State :=
  match s.findSweep n with
  | none => s
  | some e =>
    match e.timer with
    | none => s
    | some _ => (settleSweep e (e.settle .noReport FailSet.empty) (Event.start s)).finish

/-! ### SWEEP CANCEL (R74) -/

/-- SWEEP CANCEL at the Sweep Admission Unit. -/
def serveSweepCancel (f : Frame) (s : State) : State :=
  match s.findSweep (wordAt f.payload 0) with
  | none => s.pushReply .source f .sweepUnknown []
  | some e =>
    if e.stage.isMerging then s.pushReply .source f .tooLate []
    else (resolve .cancelled none e (Event.start s)).reply .source f .done []

/-- SWEEP_CANCEL. -/
def execSweepCancel (s : State) : Host.Outcome State Fault Refusal :=
  .next (request .source 23 (fixedLength 4) serveSweepCancel s)

end Sys2Proof.Machine
end

