-- ==== Sys2Proof/Machine/Lanes.lean ====
section
/-! DEFINITION. The Lane Dispatcher and the correlation lanes (chapter 6): the grant, the CORRELATE phase's arithmetic,
merge ports and the MERGE phase. -/

namespace Sys2Proof.Machine

/-! ### The grant (R99 to R102) -/

/-- Does entry `a` come before entry `b` in the Dispatcher's order: earlier data-complete row, then lower fleet
number; at a tie the one accepted earlier, which `b` is when it stands first (R100)? -/
def grantBefore (a b : SweepEntry) : Bool :=
  ssnBefore a.dataRow b.dataRow || (decide (a.dataRow = b.dataRow) && decide (a.fleet < b.fleet))

/-- The better of the entry chosen so far and the next one of the table. -/
def grantChoice (best : Option SweepEntry) (e : SweepEntry) : Option SweepEntry :=
  if e.stage = .ready then
    match best with
    | none => some e
    | some b => if grantBefore e b then some e else some b
  else best

/-- The sweep the Dispatcher chooses among the READY entries (R100). -/
def chooseSweep (sweeps : List SweepEntry) : Option SweepEntry := sweeps.foldl grantChoice none

/-- The lowest-numbered IDLE lane (R100). -/
def chooseLane (s : State) : Option (Fin Config.lanes) :=
  (List.finRange Config.lanes).find? (fun l => decide (s.lanes[l] = .idle))

/-- The channel snapshot: active flag and monitor state of the entries 0..C-1 (R39, R101). -/
def channelSnapshot (s : State) : List ChannelView :=
  (s.monitor.table.toList.take s.ingest.channels).map fun c => { active := c.active, monitor := c.monitor }

/-- The job of a granted sweep (R101). -/
def jobOf (s : State) (e : SweepEntry) : Job :=
  { sweep := e.number, slot := e.slot, t0 := e.t0, pilotLength := e.pilotLength, pilot := e.pilot,
    listen := e.copy.listen, shift := e.copy.shift, weight := e.copy.weight, burst := e.copy.burst,
    clipLimit := e.copy.clipLimit, qc := e.qc, noReport := e.copy.noReport, snapshot := channelSnapshot s }

/-- A READY sweep joins an IDLE lane (R101). -/
def grantTo (e : SweepEntry) (l : Fin Config.lanes) (s : State) : State :=
  (s.updateSweep e.number fun x => { x with stage := .correlating l }).setLane l (.correlating (jobOf s e))

/-- Is there a READY sweep and an IDLE lane (R99)? -/
def State.grantDue (s : State) : Bool := (chooseSweep s.sweeps).isSome && (chooseLane s).isSome

/-- The Dispatcher's next grant, where one is due (R99). -/
def grantNext (s : State) : State :=
  match chooseSweep s.sweeps, chooseLane s with
  | some e, some l => grantTo e l s
  | _, _ => s

/-- "It goes on until one of the two no longer exists" (R99): each grant takes one of the four lanes. -/
def grantAll (s : State) : State := grantNext^[Config.lanes] s

/-- GRANT. Without a READY sweep and an IDLE lane there is no grant (R99; log entry 1). -/
def execGrant (s : State) : Host.Outcome State Fault Refusal := .next (grantNext s)

/-! ### CORRELATE (R103 to R110) -/

/-- The rows of a sweep's window, T0..T0+S+L-2, read from the ring (R21, R103). -/
def windowRows (ring : List RingRow) (t0 : Ssn) (n : Nat) : List RingRow :=
  (ring.dropWhile fun r => decide (r.ssn ≠ t0)).take n

/-- One channel's words of the window. -/
def channelWords (rows : List RingRow) (c : Nat) : List RingWord :=
  rows.map fun r => r.words.getD c { x := 0, clipped := false, dropout := false }

/-- Clipped count (R105). -/
def clippedCount (words : List RingWord) : Nat := (words.filter RingWord.clipped).length

/-- Window power W over a window of n rows (R106); the shift by 14 floors. -/
def windowPower (words : List RingWord) (n : Nat) : Nat := (words.map fun w => (w.x / 16384).natAbs ^ 2).sum / n

/-- The cause of a channel's trace, the first test that holds (R104). -/
def traceCause (j : Job) (v : ChannelView) (words : List RingWord) : Option TraceCause :=
  if v.active = false then some .inactive
  else if v.monitor = .dead then some .dead
  else if 1 ≤ j.clipLimit ∧ j.clipLimit ≤ clippedCount words then some .clip
  else if j.weight = .diversity ∧ 0 < j.burst ∧ j.burst < windowPower words (j.pilotLength + j.listen - 1) then
    some .burst
  else none

/-- The weight of a trace without a cause (R109). -/
def traceWeight (mode : WeightMode) (power : Nat) : Nat :=
  match mode with
  | .plain => 1
  | .diversity => min 65535 (1073741824 / max power 16384)

/-- The sum of products of samples and pilot from the first sample on. -/
def dot : List Int → List Int → Int
  | x :: xs, p :: ps => x * p + dot xs ps
  | _, _ => 0

/-- The correlation sums Q[0..L-1] (R107). -/
def correlationSums (pilot : List Int) : Nat → List Int → List Int
  | 0, _ => []
  | n + 1, xs => dot xs pilot :: correlationSums pilot n xs.tail

/-- A correlation sum divided by 2^CS, rounded half away from zero, before saturation (R108). -/
def scaledSum (shift : Nat) (q : Int) : Int := roundDiv q (2 ^ shift)

/-- A correlated value (R108). -/
def correlatedValue (shift : Nat) (q : Int) : Int := saturate 32 (scaledSum shift q)

/-- How many of the values saturation changes (R108). -/
def saturationCount (shift : Nat) (qs : List Int) : Nat :=
  (qs.filter fun q => decide (correlatedValue shift q ≠ scaledSum shift q)).length

/-- One channel's record and its saturated values (R103, R107 to R110). -/
def correlateChannel (j : Job) (pilot : List Int) (v : ChannelView) (words : List RingWord) : TraceRecord × Nat :=
  match traceCause j v words with
  | some c => ({ cause := some c, weight := 0, trace := [] }, 0)
  | none =>
    let qs := correlationSums pilot j.listen (words.map RingWord.x)
    ({ cause := none, weight := traceWeight j.weight (windowPower words (j.pilotLength + j.listen - 1)),
       trace := qs.map (correlatedValue j.shift) }, saturationCount j.shift qs)

/-- The records of channels c, c+1, … -/
def correlateChannels (j : Job) (pilot : List Int) (rows : List RingRow) (c : Nat) :
    List ChannelView → List (TraceRecord × Nat)
  | [] => []
  | v :: l => correlateChannel j pilot v (channelWords rows c) :: correlateChannels j pilot rows (c + 1) l

/-- Is a record's cause an edit: DEAD, CLIP or BURST (R104)? -/
def TraceRecord.isEdited (r : TraceRecord) : Bool :=
  match r.cause with
  | some .dead => true
  | some .clip => true
  | some .burst => true
  | _ => false

/-- A record with the INACTIVE cause. -/
def TraceRecord.isInactive (r : TraceRecord) : Bool := decide (r.cause = some .inactive)

/-- The scratch a CORRELATE phase writes (R110). -/
def correlate (j : Job) (s : State) : Scratch :=
  let pilot := s.pilots[j.pilot].phase.samples.map BitVec.toInt
  let rows := windowRows s.ring j.t0 (j.pilotLength + j.listen - 1)
  let out := correlateChannels j pilot rows 0 j.snapshot
  { records := out.map Prod.fst
    counts :=
      { edited := (out.filter fun r => r.1.isEdited).length
        inactive := (out.filter fun r => r.1.isInactive).length
        saturated := (out.map Prod.snd).sum } }

/-! ### Merge ports (R111, R112) -/

/-- The lane takes the merge port if it is free and nobody waits, else it joins the waiting list's end (R111, R112). -/
def askPort (l : Fin Config.lanes) (j : Job) (sc : Scratch) (s : State) : State :=
  let p := s.ports[j.slot]
  if p.holder = none ∧ p.waiting = [] then
    (s.setPort j.slot { p with holder := some l }).setLane l (.merging j sc)
  else (s.setPort j.slot { p with waiting := p.waiting ++ [l] }).setLane l (.mergeWait j sc)

/-- The CORRELATE completion of a lane: the scratch is complete, the sweep goes MERGING, and the lane asks for the
port (R111). -/
def correlateCompletion (l : Fin Config.lanes) (s : State) : State :=
  match s.lanes[l] with
  | .correlating j => askPort l j (correlate j s) (s.updateSweep j.sweep fun x => { x with stage := .merging l })
  | _ => s

/-- CORRELATE_COMPLETION. A lane that is not CORRELATING has no phase to complete (log entry 1). -/
def execCorrelateCompletion (lane : Nat) (s : State) : Host.Outcome State Fault Refusal :=
  match asFin Config.lanes lane with
  | none => .next s
  | some l => .next (correlateCompletion l s)

/-- The lane that receives the port begins its MERGE phase (R112). -/
def beginMerge (l : Fin Config.lanes) (s : State) : State :=
  match s.lanes[l] with
  | .mergeWait j sc => s.setLane l (.merging j sc)
  | _ => s

/-- The port passes to the first waiting lane, or becomes free (R112). -/
def passPort (k : Fin Config.stackSlots) (s : State) : State :=
  match s.ports[k].waiting with
  | [] => s.setPort k { holder := none, waiting := [] }
  | l :: rest => beginMerge l (s.setPort k { holder := some l, waiting := rest })

/-! ### MERGE (R113 to R116) -/

/-- A[k] increases by w × r[k], for each k (R113). -/
def addTrace (w : Nat) (acc trace : List Int) : List Int := zipFirst (fun a r => a + w * r) acc trace

/-- The additions of one scratch record to its channel's record (R113). -/
def mergeChannel (c : ChannelStack) (r : TraceRecord) : ChannelStack :=
  match r.cause with
  | none =>
    { c with acc := addTrace r.weight c.acc r.trace, weightSum := c.weightSum + r.weight, accepted := c.accepted + 1 }
  | some .inactive => c
  | some cause => { c with edited := c.edited + 1, causes := c.causes.add cause }

/-- First T0 after a merge (R114). -/
def mergeFirstT0 (fold : Nat) (old : Option Ssn) (t0 : Ssn) : Option Ssn :=
  match old with
  | none => some t0
  | some o => if fold = 0 ∨ ssnBefore t0 o then some t0 else some o

/-- Last T0 after a merge (R114). -/
def mergeLastT0 (fold : Nat) (old : Option Ssn) (t0 : Ssn) : Option Ssn :=
  match old with
  | none => some t0
  | some o => if fold = 0 ∨ ssnBefore o t0 then some t0 else some o

/-- The additions of R113 and the slot-wide changes of R114 but for pending and tag, which the resolution makes once
(R115). -/
def mergeStack (j : Job) (sc : Scratch) (st : Stack) : Stack :=
  { st with
    records := zipFirst mergeChannel st.records sc.records
    fold := st.fold + 1
    firstT0 := mergeFirstT0 st.fold st.firstT0 j.t0
    lastT0 := mergeLastT0 st.fold st.lastT0 j.t0
    qcKept := if qcFails j.qc j.noReport then st.qcKept + 1 else st.qcKept
    corrSat := st.corrSat || decide (0 < sc.counts.saturated) }

/-- The scratch is applied to the slot (R114). -/
def applyMerge (j : Job) (sc : Scratch) (s : State) : State :=
  match s.slots[j.slot] with
  | none => s
  | some st => s.setSlot j.slot (some (mergeStack j sc st))

/-- The sweep of a merged job is resolved MERGED (R115). -/
def resolveMerged (j : Job) (sc : Scratch) (ev : Event) : Event :=
  match ev.st.findSweep j.sweep with
  | none => ev
  | some e => resolve .merged (some sc.counts) e ev

/-- The merge completion of a lane, one event: the merge, the resolution, the lane's end and the port's passing on
(R114, R115). -/
def mergeCompletion (l : Fin Config.lanes) (s : State) : State :=
  match s.lanes[l] with
  | .merging j sc =>
    ((resolveMerged j sc (Event.start (applyMerge j sc s))).change fun s =>
      passPort j.slot (s.setLane l .idle)).finish
  | _ => s

/-- MERGE_COMPLETION. A lane that is not MERGING has no merge to complete (log entry 1). -/
def execMergeCompletion (lane : Nat) (s : State) : Host.Outcome State Fault Refusal :=
  match asFin Config.lanes lane with
  | none => .next s
  | some l => .next (mergeCompletion l s)

end Sys2Proof.Machine
end

