-- ==== Sys2Proof/Machine/Clock.lean ====
section
/-! DEFINITION. The device millisecond clock (00 section 0.5): timers expire no earlier than their length and no later
than one millisecond after it, and no time passes while a grant is due (R99; log entries 3 to 6). -/

namespace Sys2Proof.Machine

/-! ### Timers that have run out -/

/-- "A timer of t ms expires no earlier than t ms and no later than t+1 ms after it was started": one millisecond
after its deadline it has expired. -/
def Timer.isOverdue (t : Timer) (clock : Nat) : Bool := decide (t.deadline + 1 ≤ clock)

/-- The timers that run: fill timers by slot, report timers in table order, linger timers by slot. -/
def State.timers (s : State) : List Timer :=
  s.pilots.toList.filterMap (fun p => p.phase.fillTimer) ++ s.sweeps.filterMap SweepEntry.timer ++
    s.slots.toList.filterMap (fun slot => slot.bind Stack.lingerTimer)

/-- The fill timer of a slot expires where it is overdue (R45). -/
def expireFill (s : State) (k : Fin Config.pilots) : State :=
  match s.pilots[k].phase.fillTimer with
  | none => s
  | some t => if t.isOverdue s.clock then fillTimeout k s else s

/-- The report timer of an entry expires where it is overdue (R92). -/
def expireReport (s : State) (n : Word32) : State :=
  match (s.findSweep n).bind SweepEntry.timer with
  | none => s
  | some t => if t.isOverdue s.clock then reportTimerExpiry n s else s

/-- The linger timer of a slot expires where it is overdue (R131). -/
def expireLinger (s : State) (k : Fin Config.stackSlots) : State :=
  match s.slots[k].bind Stack.lingerTimer with
  | none => s
  | some t => if t.isOverdue s.clock then lingerExpiry k s else s

/-- Every overdue timer expires, each expiry an event of its own: the fill timers, the report timers in table order, then
the linger timers (log entry 6). -/
def expireDue (s : State) : State :=
  let s1 := (List.finRange Config.pilots).foldl expireFill s
  let s2 := (s1.sweeps.map SweepEntry.number).foldl expireReport s1
  (List.finRange Config.stackSlots).foldl expireLinger s2

/-! ### Time passes -/

/-- The clock comes to a later moment. Grants that are due are made first: "A READY sweep does not wait while a lane is
IDLE" (R99). -/
def advanceTo (moment : Nat) (s : State) : State :=
  if s.clock < moment then { grantAll s with clock := moment } else s

/-- The latest moments up to a time at which running timers expire, earliest first. -/
def State.dueMoments (s : State) (time : Nat) : List Nat :=
  ((s.timers.map fun t => t.deadline + 1).filter fun m => decide (m ≤ time)).insertionSort (· ≤ ·)

/-- Time passes up to a moment. Every timer whose latest moment comes by then expires at it, in the order of time; an
expiry starts no timer. -/
def passTo (time : Nat) (s : State) : State :=
  advanceTo time ((s.dueMoments time).foldl (fun s m => expireDue (advanceTo m s)) s)

/-- One millisecond passes. -/
def tick (s : State) : State := passTo (s.clock + 1) s

/-- What a part does that nobody commands: a grant that is due, as an event of its own (R99); else one millisecond passes
(log entries 3 and 5). -/
def idle (s : State) : State := if s.grantDue then grantNext s else tick s

/-! ### Commanded expiries: time passes up to the timer's deadline, and the timer expires there (log entry 4) -/

/-- FILL_TIMEOUT (R45). A slot without a running fill timer has none to expire (log entry 1). -/
def execFillTimeout (slot : Nat) (s : State) : Host.Outcome State Fault Refusal :=
  match asFin Config.pilots slot with
  | none => .next s
  | some k =>
    match s.pilots[k].phase.fillTimer with
    | none => .next s
    | some t => .next (fillTimeout k (passTo t.deadline s))

/-- REPORT_TIMER_EXPIRY (R93). An entry without a running report timer has none to expire (log entry 1). -/
def execReportTimerExpiry (n : Word32) (s : State) : Host.Outcome State Fault Refusal :=
  match (s.findSweep n).bind SweepEntry.timer with
  | none => .next s
  | some t => .next (reportTimerExpiry n (passTo t.deadline s))

/-- LINGER_EXPIRY (R131). A slot without a running linger timer has none to expire (log entry 1). -/
def execLingerExpiry (slot : Nat) (s : State) : Host.Outcome State Fault Refusal :=
  match asFin Config.stackSlots slot with
  | none => .next s
  | some k =>
    match s.slots[k].bind Stack.lingerTimer with
    | none => .next s
    | some t => .next (lingerExpiry k (passTo t.deadline s))

end Sys2Proof.Machine
end

