-- ==== Sys2Proof/Machine/Channels.lean ====
section
/-! DEFINITION. The Channel Monitor (chapter 2): the hand-off of rows, interval completion, monitor reset and clear,
CHANNEL SET and CHANNEL READ. -/

namespace Sys2Proof.Machine

/-! ### Rows and intervals -/

/-- One sample of a handed row at one entry: a monitored channel adds |x| and, in a row that is not a gap row, makes
the latches of R35 (R25, R30). -/
def takeSample (gap : Bool) (c : Channel) (w : RingWord) : Channel :=
  if c.active then
    { c with
      intervalSum := c.intervalSum + w.x.natAbs
      latched := if gap then c.latched else c.latched.sample w }
  else c

/-- The dead test of a level (R32, R33). -/
def judgeDead (level : Nat) (c : Channel) : Channel :=
  if level < c.deadThreshold then
    let run := min 4 (c.lowRun + 1)
    if run = 4 ∧ c.monitor = .normal then
      { c with lowRun := run, monitor := .dead, latched := { c.latched with deadSeen := true } }
    else { c with lowRun := run }
  else { c with lowRun := 0, monitor := .normal }

/-- The noise test of a level (R34). -/
def judgeNoise (level : Nat) (c : Channel) : Channel :=
  if c.noiseThreshold < level then { c with latched := { c.latched with noisySeen := true } } else c

/-- Level of an interval: floor(interval sum / 2^24) (R31). -/
def intervalLevel (sum : Nat) : Nat := sum / 16777216

/-- One entry at an interval completion (R31). -/
def completeInterval (c : Channel) : Channel :=
  if c.active then
    if c.partialMark then { c with partialMark := false, intervalSum := 0 }
    else
      let level := intervalLevel c.intervalSum
      judgeNoise level (judgeDead level { c with lastLevel := level, intervalSum := 0 })
  else c

/-- Does the entry raise CHANNEL_CHANGE at this interval completion (R32, R34)? It does when the completion moves it
to DEAD or latches NOISY_SEEN anew. -/
def raisesChange (c : Channel) : Bool :=
  let d := completeInterval c
  (decide (c.monitor = .normal) && decide (d.monitor = .dead)) || (!c.latched.noisySeen && d.latched.noisySeen)

/-- A row handed to the monitor: origin, interval sums, latches, position, and at the 1,024th row of the interval the
completion for entries 0..C-1 (R30). -/
def Monitor.takeRow (m : Monitor) (channels : Nat) (ssn : Ssn) (gap : Bool) (words : List RingWord) : Monitor :=
  let position := if m.origin = none then 0 else m.position
  let table := zipFirstVec (takeSample gap) m.table words
  if position + 1 = Config.intervalRows then
    { table := mapFirstVec completeInterval channels table, origin := some (m.origin.getD ssn), position := 0 }
  else { table := table, origin := some (m.origin.getD ssn), position := position + 1 }

/-- Does the handed row complete an interval that raises CHANNEL_CHANGE? -/
def Monitor.rowRaises (m : Monitor) (channels : Nat) (gap : Bool) (words : List RingWord) : Bool :=
  let position := if m.origin = none then 0 else m.position
  decide (position + 1 = Config.intervalRows) &&
    (((zipFirstVec (takeSample gap) m.table words).toList.take channels).any raisesChange)

/-- A row handed to the Channel Monitor, as part of an event (R20, R29, R30). -/
def handRow (ssn : Ssn) (gap : Bool) (words : List RingWord) (e : Event) : Event :=
  (e.change fun s => { s with monitor := s.monitor.takeRow s.ingest.channels ssn gap words }).addCauseIf
    (e.st.monitor.rowRaises e.st.ingest.channels gap words) .channelChange

/-! ### Reset and clear -/

/-- One entry at a monitor reset that keeps the flags (R37). -/
def resetChannel (c : Channel) : Channel :=
  { c with intervalSum := 0, partialMark := false, lowRun := 0, monitor := .normal }

/-- The monitor at a restart with origin O, or, with none, at an accepted SETUP STREAM (R37). -/
def Monitor.restart (m : Monitor) (origin : Option Ssn) : Monitor :=
  { table := mapVec resetChannel m.table, origin := origin, position := 0 }

/-- One entry at DEVICE CLEAR (R38). -/
def clearChannel (c : Channel) : Channel := { resetChannel c with lastLevel := 0, latched := Latched.reset }

/-- The monitor at DEVICE CLEAR (R38). -/
def Monitor.clear (m : Monitor) : Monitor := { table := mapVec clearChannel m.table, origin := none, position := 0 }

/-! ### CHANNEL SET (R26, R27) -/

/-- One entry written from its record; `position` is the row position (R27). -/
def writeChannel (position : Nat) (c : Channel) (r : ChannelRecord) : Channel :=
  let d : Channel :=
    { c with
      label := r.label, deadThreshold := clamp 0 32767 r.deadThreshold,
      noiseThreshold := clamp 0 32767 r.noiseThreshold }
  match c.active, decide (r.active = 1) with
  | false, false => d
  | true, true => d
  | false, true => { d with active := true, intervalSum := 0, partialMark := decide (position ≠ 0) }
  | true, false => { d with active := false, intervalSum := 0, partialMark := false, monitor := .normal, lowRun := 0 }

/-- Entries first, first + 1, … written from the records, as many as the table has (R26). -/
def writeChannels (position first : Nat) (records : List ChannelRecord) (v : Vector Channel Config.channels) :
    Vector Channel Config.channels :=
  ⟨⟨v.toList.take first ++ zipFirst (writeChannel position) (v.toList.drop first) records⟩, by
    simp [zipFirst_length]; omega⟩

/-- The effective count of a channel range (R26, R28). -/
def clampRange (first count : Nat) : Nat := min count (Config.channels - first)

/-- CHANNEL SET is checked by the link against its fixed fields (R167). -/
def fitsChannelSet (p : List Byte) : Bool := decide (4 ≤ p.length)

/-- CHANNEL SET at the Channel Monitor. -/
def serveChannelSet (f : Frame) (s : State) : State :=
  let first := halfAt f.payload 0
  let count := halfAt f.payload 2
  let records := (chunks 9 count (f.payload.drop 4)).map readChannelRecord
  if f.payload.length ≠ 4 + 9 * count then s.pushReply .record f .badLength []
  else if 1023 < first ∨ count < 1 ∨ 256 < count then s.pushReply .record f .badValue []
  else if records.any (fun r => decide (1 < r.active)) then s.pushReply .record f .badValue []
  else
    { s with monitor := { s.monitor with table := writeChannels s.monitor.position first records s.monitor.table } }.pushReply
      .record f .done (enc16 first ++ enc16 (clampRange first count))

/-- CHANNEL_SET. -/
def execChannelSet (s : State) : Host.Outcome State Fault Refusal :=
  .next (request .record 33 fitsChannelSet serveChannelSet s)

/-! ### CHANNEL READ (R28) -/

/-- One entry's record in CHANNEL READ. -/
def channelFields (n : Nat) (c : Channel) : List Byte :=
  enc16 n ++ encBool c.active ++ encWord c.label ++ enc16 c.deadThreshold ++ enc16 c.noiseThreshold ++
    enc8 c.monitor.number ++ enc8 c.lowRun ++ enc16 c.lastLevel ++ c.latched.byte

/-- The records of entries first, first + 1, … -/
def channelList (first : Nat) : List Channel → List Byte
  | [] => []
  | c :: l => channelFields first c ++ channelList (first + 1) l

/-- The latched flags of entries first..first+count-1 are cleared. -/
def clearLatches (first count : Nat) (v : Vector Channel Config.channels) : Vector Channel Config.channels :=
  ⟨⟨v.toList.take first ++ mapFirst (fun c => { c with latched := Latched.reset }) count (v.toList.drop first)⟩, by
    simp [mapFirst_length]; omega⟩

/-- CHANNEL READ at the Channel Monitor: the flags are returned as they stand and cleared in the same event. -/
def serveChannelRead (f : Frame) (s : State) : State :=
  let first := halfAt f.payload 0
  let count := halfAt f.payload 2
  if 1023 < first ∨ count < 1 ∨ 256 < count then s.pushReply .record f .badValue []
  else
    let n := clampRange first count
    { s with monitor := { s.monitor with table := clearLatches first n s.monitor.table } }.pushReply .record f .done
      (enc16 first ++ enc16 n ++ channelList first ((s.monitor.table.toList.drop first).take n))

/-- CHANNEL_READ. -/
def execChannelRead (s : State) : Host.Outcome State Fault Refusal :=
  .next (request .record 34 (fixedLength 4) serveChannelRead s)

end Sys2Proof.Machine
end

