-- ==== Sys2Proof/Machine/Links.lean ====
section
/-! DEFINITION. The link interfaces (chapter 9): frame receipt, link up and down, sending, and requests of no kind of
their link. -/

namespace Sys2Proof.Machine

/-! ### Frame receipt (R4, R162, R164, R165, R175) -/

/-- A frame is counted as a CRC-discard and raises LINK_ERROR (R162, R164). -/
def crcDiscard (link : LinkId) (s : State) : State :=
  let ev := (Event.start s).change fun s =>
    match link with
    | .spread => { s with spread := { s.spread with crcDiscards := satAdd32 s.spread.crcDiscards 1 } }
    | .source => { s with source := { s.source with crcDiscards := satAdd32 s.source.crcDiscards 1 } }
    | .record => { s with record := { s.record with crcDiscards := satAdd32 s.record.crcDiscards 1 } }
  (ev.addCause .linkError).finish

/-- A frame that finds the input buffer full is counted in the overflow counter and raises LINK_ERROR (R4, R165). -/
def overflow (link : LinkId) (s : State) : State :=
  let ev := (Event.start s).change fun s =>
    match link with
    | .spread => { s with spread := { s.spread with overflows := satAdd32 s.spread.overflows 1 } }
    | .source => { s with source := { s.source with overflows := satAdd32 s.source.overflows 1 } }
    | .record => { s with record := { s.record with overflows := satAdd32 s.record.overflows 1 } }
  (ev.addCause .linkError).finish

/-- A frame that has passed the check joins the end of the buffer, or overflows it (R4, R165). -/
def bufferFrame (link : LinkId) (f : Frame) (s : State) : State :=
  match link with
  | .spread =>
    if s.spread.input.length < Config.spreadPlaces then
      { s with spread := { s.spread with input := s.spread.input ++ [f] } }
    else overflow .spread s
  | .source =>
    if s.source.input.length < Config.requestPlaces then
      { s with source := { s.source with input := s.source.input ++ [f] } }
    else overflow .source s
  | .record =>
    if s.record.input.length < Config.requestPlaces then
      { s with record := { s.record with input := s.record.input ++ [f] } }
    else overflow .record s

/-- The link's check of received bytes (R162, R175). -/
def checkFrame (link : LinkId) (bytes : List Byte) : Option Frame :=
  match link with
  | .spread => readSpreadFrame bytes
  | .source => readFrame bytes
  | .record => readFrame bytes

/-- Is a link up (R172)? -/
def State.linkIsUp (s : State) (link : LinkId) : Bool :=
  match link with
  | .spread => s.spread.up
  | .source => s.source.up
  | .record => s.record.up

/-- Receipt of a frame on a link that is up. -/
def receiveFrame (link : LinkId) (bytes : List Byte) (s : State) : State :=
  match checkFrame link bytes with
  | none => crcDiscard link s
  | some f => bufferFrame link f s

/-- FRAME_RECEIPT. "While the link is down, nothing is received on it" (R173). -/
def execFrameReceipt (link : LinkId) (bytes : List Byte) (s : State) : Host.Outcome State Fault Refusal :=
  .next (if s.linkIsUp link then receiveFrame link bytes s else s)

/-! ### Link up and down (R172 to R174) -/

/-- LINK_UP (R174). -/
def execLinkUp (link : LinkId) (s : State) : Host.Outcome State Fault Refusal :=
  match link with
  | .spread => .next { s with spread := { s.spread with up := true } }
  | .source => .next { s with source := { s.source with up := true } }
  | .record => .next { s with record := { s.record with up := true } }

/-- LINK_DOWN: the buffer and the queue are emptied; on the Record Link a read in hand ends and held ALERTs are lost
(R151, R171, R173). -/
def execLinkDown (link : LinkId) (s : State) : Host.Outcome State Fault Refusal :=
  match link with
  | .spread => .next { s with spread := { s.spread with up := false, input := [] } }
  | .source => .next { s with source := { s.source with up := false, input := [], output := [] } }
  | .record =>
    .next { s with
      record := { s.record with up := false, input := [], output := [] }, reading := none, heldAlerts := [] }

/-! ### Sending (R163, R169) -/

/-- The oldest message of an output queue goes on the line. -/
def PartnerLink.send (l : PartnerLink) : PartnerLink :=
  match l.up, l.output with
  | true, m :: rest => { l with output := rest, sent := l.sent ++ [m.bytes] }
  | _, _ => l

/-- MESSAGE_SEND. "The Spread Link sends nothing" (R175). -/
def execMessageSend (link : LinkId) (s : State) : Host.Outcome State Fault Refusal :=
  match link with
  | .spread => .next s
  | .source => .next { s with source := s.source.send }
  | .record => .next { s with record := s.record.send }

/-! ### Requests of no kind of their link (R167) -/

/-- UNKNOWN_KIND: the oldest frame, if its kind is not one of the link's requests, is taken and refused without
result fields. Where it is one, the event does not take place (log entry 1). -/
def execUnknownKind (link : LinkId) (s : State) : Host.Outcome State Fault Refusal :=
  match s.takeRequest link with
  | none => .next s
  | some (f, s1) =>
    .next (if (requestKinds link).contains f.kind.toNat then s else s1.pushReply link f .unknownKind [])

/-! ### Power -/

/-- POWER_ON: every item at its power-on value (00 section 0.8). The queue of commands and the free-value counter are
not the part's (log entry 18). -/
def execPowerOn (s : State) : Host.Outcome State Fault Refusal :=
  .next { State.reset with pending := s.pending, freeCount := s.freeCount }

end Sys2Proof.Machine
end

