-- ==== Sys2Proof/Machine/Stream.lean ====
section
/-! DEFINITION. The Stream Ingest Unit and the Sample Ring (chapter 1): ROW BLOCK, STREAM START and SETUP STREAM. -/

namespace Sys2Proof.Machine

/-! ### Samples -/

/-- The ring word of a sample word: x = s × 4^(3-g) with the clipped mark, or x = 0 with the dropout mark (R16,
R17). -/
def normalise (w : SampleWord) : RingWord :=
  if w.valid then
    { x := w.raw * 4 ^ (3 - w.gain), clipped := decide (w.raw = -8388608 ∨ w.raw = 8388607), dropout := false }
  else { x := 0, clipped := false, dropout := true }

/-- A word of a gap row (R11). -/
def gapWord : RingWord := { x := 0, clipped := false, dropout := true }

/-- How many words of rows have the valid flag clear (R17, R22). -/
def invalidWords (rows : List (List SampleWord)) : Nat :=
  (rows.map fun r => (r.filter fun w => !w.valid).length).sum

/-! ### Appending (R19) -/

/-- Step 1 of R19: a full ring's oldest row departs, with its departure report. -/
def departOldest (ev : Event) : Event :=
  if Config.ringRows ≤ ev.st.ring.length then
    match ev.st.ring with
    | [] => ev
    | r :: rest => departureReport r.ssn (ev.change fun s => { s with ring := rest })
  else ev

/-- Step 2 of R19, with E one past the row's SSN (R8). -/
def storeRow (ssn : Ssn) (words : List RingWord) (s : State) : State :=
  { s with
    ring := s.ring ++ [{ ssn := ssn, words := words }]
    ingest := { s.ingest with origin := s.ingest.origin.map fun o => { o with expected := ssn + 1 } } }

/-- The SSN the next row carries (R8). While no origin is set no row is appended. -/
def nextSsn (s : State) : Ssn :=
  match s.ingest.origin with
  | none => 0
  | some o => o.expected

/-- One row is appended at E: departure, store, arrival report, hand-off (R19, R20). The results of each row's reports
follow those of the row before within the block's one event (log entry 25). -/
def appendRow (gap : Bool) (ev : Event) (words : List RingWord) : Event :=
  let ssn := nextSsn ev.st
  let ev1 := (departOldest ev).change (storeRow ssn words)
  handRow ssn gap words (arrivalReport ssn ev.st.ring.isEmpty ev1)

/-- The rows of a block, from the row at E on, are normalised and appended in order; each invalid word counts as a
dropout (R10, R17, R22). Results in row order, causes raised once: log entry 25. -/
def appendBlock (rows : List (List SampleWord)) (ev : Event) : Event :=
  let ev1 := ev.change fun s =>
    { s with ingest := { s.ingest with dropouts := satAdd32 s.ingest.dropouts (invalidWords rows) } }
  (rows.map fun r => r.map normalise).foldl (appendRow false) ev1

/-- A gap of d rows is closed with gap rows (R11), in the one event of the block (log entry 25). -/
def fillGap (d : Nat) (ev : Event) : Event :=
  let ev1 := (ev.change fun s =>
    { s with ingest := { s.ingest with gapRows := satAdd32 s.ingest.gapRows d } }).addCause .streamFault
  (List.replicate d (List.replicate ev.st.ingest.channels gapWord)).foldl (appendRow true) ev1

/-! ### Restart (R15) -/

/-- A stream restart with origin O, its four effects in order (R15). -/
def restartStream (o : Ssn) (ev : Event) : Event :=
  let ev1 := ev.change fun s =>
    { s with ring := [], ingest := { s.ingest with origin := some { origin := o, expected := o } } }
  (restartReport ev1).change fun s => { s with monitor := s.monitor.restart (some o) }

/-! ### ROW BLOCK (R5 to R13) -/

/-- Is a ROW BLOCK's payload malformed (R6)? -/
def blockMalformed (p : List Byte) : Bool :=
  decide (p.length < 7 ∨ byteAt p 4 < 1 ∨ 16 < byteAt p 4 ∨ halfAt p 5 < 1 ∨ 1024 < halfAt p 5 ∨
    8192 < byteAt p 4 * halfAt p 5 ∨ p.length ≠ 7 + 4 * (byteAt p 4 * halfAt p 5))

/-- A block is discarded whole (R6, R7). -/
def discardBlock (ev : Event) : Event :=
  (ev.change fun s =>
    { s with ingest := { s.ingest with discarded := satAdd32 s.ingest.discarded 1 } }).addCause .streamFault

/-- The first rows of a block are stale: they are discarded and counted (R12). -/
def countStale (n : Nat) (ev : Event) : Event :=
  (ev.change fun s =>
    { s with ingest := { s.ingest with staleRows := satAdd32 s.ingest.staleRows n } }).addCause .streamFault

/-- A block with first SSN F placed against E (R10). -/
def placeBlock (first expected : Ssn) (rows : List (List SampleWord)) (ev : Event) : Event :=
  let ahead := (first - expected).toNat
  if ahead = 0 then appendBlock rows ev
  else if ahead ≤ Config.gapRows then appendBlock rows (fillGap ahead ev)
  else if ahead ≤ 2147483648 then appendBlock rows (restartStream first (ev.addCause .streamFault))
  else
    let behind := (expected - first).toNat
    appendBlock (rows.drop behind) (countStale (min behind rows.length) ev)

/-- A ROW BLOCK taken from the buffer (R5 to R10). -/
def handleRowBlock (p : List Byte) (ev : Event) : Event :=
  if blockMalformed p then discardBlock ev
  else if halfAt p 5 ≠ ev.st.ingest.channels then discardBlock ev
  else
    let first := wordAt p 0
    let rows := readRows (byteAt p 4) (halfAt p 5) p
    match ev.st.ingest.origin with
    | none =>
      appendBlock rows (ev.change fun s =>
        { s with ingest := { s.ingest with origin := some { origin := first, expected := first } } })
    | some o => placeBlock first o.expected rows ev

/-- ROW_BLOCK. Where the oldest frame is no ROW BLOCK there is none to take (log entry 1). -/
def execRowBlock (s : State) : Host.Outcome State Fault Refusal :=
  match s.takeSpread with
  | none => .next s
  | some (f, s1) => .next (if f.kind = 1 then (handleRowBlock f.payload (Event.start s1)).finish else s)

/-! ### STREAM START (R14) -/

/-- A STREAM START taken from the buffer: a restart in every origin state, STREAM_FAULT if the ring held a row. -/
def handleStreamStart (o : Ssn) (ev : Event) : Event :=
  restartStream o (ev.addCauseIf (!ev.st.ring.isEmpty) .streamFault)

/-- STREAM_START. Where the oldest frame is no STREAM START there is none to take (log entry 1). -/
def execStreamStart (s : State) : Host.Outcome State Fault Refusal :=
  match s.takeSpread with
  | none => .next s
  | some (f, s1) => .next (if f.kind = 2 then (handleStreamStart (wordAt f.payload 0) (Event.start s1)).finish else s)

/-! ### SETUP STREAM (R2) -/

/-- The result fields of SETUP STREAM: C and the interval code as they stand after the request. -/
def setupFields (s : State) : List Byte := enc16 s.ingest.channels ++ enc8 s.ingest.interval

/-- The effects of an accepted SETUP STREAM (R2, R8, R37). -/
def setupStream (channels : Nat) (interval : Fin 4) (s : State) : State :=
  clearSlip
    { s with
      ingest := { s.ingest with channels := channels, interval := interval, origin := none }
      ring := [], monitor := s.monitor.restart none }

/-- Is every sweep entry and stack slot gone (R2)? -/
def isQuiet (s : State) : Bool := s.sweeps.isEmpty && s.slots.toList.all Option.isNone

/-- SETUP STREAM at the Ingest Unit. -/
def serveSetupStream (f : Frame) (s : State) : State :=
  let channels := halfAt f.payload 0
  match asFin 4 (byteAt f.payload 2) with
  | none => s.pushReply .record f .badValue (setupFields s)
  | some i =>
    if 1024 < channels then s.pushReply .record f .badValue (setupFields s)
    else if isQuiet s then
      let s1 := setupStream channels i s
      s1.pushReply .record f .done (setupFields s1)
    else s.pushReply .record f .busy (setupFields s)

/-- SETUP_STREAM. -/
def execSetupStream (s : State) : Host.Outcome State Fault Refusal :=
  .next (request .record 32 (fixedLength 3) serveSetupStream s)

end Sys2Proof.Machine
end

