-- ==== Sys2Proof/Machine/Device.lean ====
section
/-! DEFINITION. Alert requests, DEVICE STATUS, CAPABILITY READ and DEVICE CLEAR (chapter 10). -/

namespace Sys2Proof.Machine

/-! ### ALERT MASK and ALERT ACK (R181, R182) -/

/-- The set of causes an alert request carries. -/
def carriedSet (f : Frame) : CauseSet := f.payload.getD 0 0

/-- The reply of ALERT MASK: mask set, then pending set. -/
def maskFields (s : State) : List Byte := [s.alerts.mask, s.alerts.pending]

/-- ALERT MASK at the Alert Unit: the new mask set, the REPLY, then one ALERT if a pending cause was masked and is not
any more. -/
def serveAlertMask (f : Frame) (s : State) : State :=
  let s1 := { s with alerts := { s.alerts with mask := carriedSet f } }
  let s2 := s1.pushReply .record f .done (maskFields s1)
  if s.alerts.pending &&& s.alerts.mask &&& ~~~(carriedSet f) = 0 then s2 else s2.sendAlert

/-- ALERT_MASK. -/
def execAlertMask (s : State) : Host.Outcome State Fault Refusal :=
  .next (request .record 42 (fixedLength 1) serveAlertMask s)

/-- The reply of ALERT ACK: pending set, then mask set. -/
def ackFields (s : State) : List Byte := [s.alerts.pending, s.alerts.mask]

/-- ALERT ACK at the Alert Unit. -/
def serveAlertAck (f : Frame) (s : State) : State :=
  let s1 := { s with alerts := { s.alerts with pending := s.alerts.pending &&& ~~~(carriedSet f) } }
  s1.pushReply .record f .done (ackFields s1)

/-- ALERT_ACK. -/
def execAlertAck (s : State) : Host.Outcome State Fault Refusal :=
  .next (request .record 43 (fixedLength 1) serveAlertAck s)

/-! ### DEVICE STATUS (R184, R121) -/

/-- Stream and ring: C, interval code, origin state, E, oldest, newest, rows held. The byte of the origin state, NONE 0
or SET 1, is the presence byte of the origin SSN (log entry 12). -/
def streamFields (s : State) : List Byte :=
  enc16 s.ingest.channels ++ enc8 s.ingest.interval ++ encOption 4 (s.ingest.origin.map fun o => encWord o.origin) ++
    encOption 4 (s.ingest.origin.map fun o => encWord o.expected) ++ encOption 4 (s.oldest.map encWord) ++
    encOption 4 (s.newest.map encWord) ++ enc32 s.ring.length

/-- The four ingest counters. -/
def ingestFields (i : Ingest) : List Byte :=
  encWord i.discarded ++ encWord i.gapRows ++ encWord i.staleRows ++ encWord i.dropouts

/-- The job of a lane that is not IDLE. -/
def Lane.job? : Lane → Option Job
  | .idle => none
  | .correlating j => some j
  | .mergeWait j _ => some j
  | .merging j _ => some j

/-- The waiting-list place of a lane in MERGE_WAIT (R121). -/
def waitingPlace (s : State) (l : Fin Config.lanes) : Option Nat :=
  match s.lanes[l] with
  | .mergeWait j _ => placeOf l s.ports[j.slot].waiting
  | _ => none

/-- One lane: state, the job's sweep number and stack slot, the waiting-list place (R121). -/
def laneFields (s : State) (l : Fin Config.lanes) : List Byte :=
  enc8 s.lanes[l].number ++ encOption 4 (s.lanes[l].job?.map fun j => encWord j.sweep) ++
    encOption 1 (s.lanes[l].job?.map fun j => enc8 j.slot) ++ encOption 1 ((waitingPlace s l).map enc8)

/-- One link: up 0 or down 1 (log entry 13), CRC-discard counter, overflow counter. -/
def linkFields (up : Bool) (crc overflows : Word32) : List Byte :=
  enc8 (if up then 0 else 1) ++ encWord crc ++ encWord overflows

/-- The result fields of DEVICE STATUS. The lanes and the links are lists of records, each after its number; the two
sequences are fields of their own behind them (log entry 11). -/
def deviceStatusFields (s : State) : List Byte :=
  streamFields s ++ ingestFields s.ingest ++ enc8 s.sweeps.length ++ encWord s.sweepCounter ++
    enc8 Config.lanes ++ (List.finRange Config.lanes).flatMap (laneFields s) ++
    enc8 s.freeSlots ++ enc8 s.harvestQueue.length ++ encWord s.stackSerials ++ encWord s.sealOrders ++
    [s.alerts.pending, s.alerts.mask] ++ enc8 3 ++
    linkFields s.spread.up s.spread.crcDiscards s.spread.overflows ++
    linkFields s.source.up s.source.crcDiscards s.source.overflows ++
    linkFields s.record.up s.record.crcDiscards s.record.overflows ++
    [s.source.sequence, s.record.sequence]

/-- DEVICE STATUS at the part. -/
def serveDeviceStatus (f : Frame) (s : State) : State := s.pushReply .record f .done (deviceStatusFields s)

/-- DEVICE_STATUS. -/
def execDeviceStatus (s : State) : Host.Outcome State Fault Refusal :=
  .next (request .record 44 (fixedLength 0) serveDeviceStatus s)

/-! ### CAPABILITY READ (R185) -/

/-- The fixed values of CAPABILITY READ: part code, revision, ten maxima. -/
def capabilityFields : List Byte :=
  enc16 1024 ++ enc8 1 ++ enc32 1024 ++ enc32 8 ++ enc32 16 ++ enc32 16384 ++ enc32 8192 ++ enc32 4 ++ enc32 12 ++
    enc32 32 ++ enc32 65536 ++ enc32 32

/-- CAPABILITY READ at the part. -/
def serveCapabilityRead (f : Frame) (s : State) : State := s.pushReply .record f .done capabilityFields

/-- CAPABILITY_READ. -/
def execCapabilityRead (s : State) : Host.Outcome State Fault Refusal :=
  .next (request .record 45 (fixedLength 0) serveCapabilityRead s)

/-! ### DEVICE CLEAR (R186) -/

/-- What the clear does in every block beside the resolutions (R23, R38, R57, R83, R120, R144, R186). -/
def clearBlocks (s : State) : State :=
  { s with
    ring := []
    ingest := { s.ingest with origin := none }
    monitor := s.monitor.clear
    pilots := mapVec clearPilot s.pilots
    fleets := mapVec (fun f => { f with lastT0 := none, openSlot := none }) s.fleets
    sweeps := []
    lanes := Vector.replicate Config.lanes .idle
    slots := Vector.replicate Config.stackSlots none
    ports := Vector.replicate Config.stackSlots MergePort.reset
    harvestQueue := []
    reading := none
    alerts := { s.alerts with pending := 0 } }

/-- The clear as an event: every entry is resolved DROPPED_CLEAR in table order, and every block is cleared. No cause
is raised (R83, R186). -/
def clearEvent (s : State) : Event := (resolveAll (fun _ => true) .droppedClear (Event.start s)).change clearBlocks

/-- DEVICE CLEAR at the part. -/
def serveDeviceClear (f : Frame) (s : State) : State := (clearEvent s).reply .record f .done []

/-- DEVICE_CLEAR. -/
def execDeviceClear (s : State) : Host.Outcome State Fault Refusal :=
  .next (request .record 46 (fixedLength 0) serveDeviceClear s)

end Sys2Proof.Machine
end

