-- ==== Sys2Proof/Machine/Harvest.lean ====
section
/-! DEFINITION. The Harvest Unit (chapter 8): RECORD READ, output normalisation, RECORD HEADER and TRACE. -/

namespace Sys2Proof.Machine

/-! ### Output samples (R152 to R155) -/

/-- The normalised value of one accumulator (R152, R153). -/
def normalisedSample (mode : ReadMode) (shift weightSum : Nat) (a : Int) : Int :=
  match mode with
  | .mean => if weightSum = 0 then 0 else roundDiv a weightSum
  | .sum => roundDiv a (2 ^ shift)

/-- The normalised values of a channel; an EMPTY channel's are all 0 (R154). -/
def normalisedTrace (mode : ReadMode) (shift : Nat) (r : ChannelStack) : List Int :=
  if r.accepted = 0 then r.acc.map fun _ => 0 else r.acc.map (normalisedSample mode shift r.weightSum)

/-- The TRACE of one channel (R155, R157). -/
def traceMessage (mode : ReadMode) (shift : Nat) (width : SampleWidth) (channel : Nat) (label : Word32)
    (r : ChannelStack) : TraceMessage :=
  let values := normalisedTrace mode shift r
  let changed := (values.filter fun v => decide (saturate width.bits v ≠ v)).length
  { channel := channel, label := label, accepted := r.accepted, edited := r.edited, causes := r.causes,
    weightSum := r.weightSum, isEmpty := decide (r.accepted = 0), outSat := decide (1 ≤ changed),
    saturated := changed, width := width, samples := values.map (saturate width.bits) }

/-! ### RECORD READ (R147 to R149) -/

/-- Mode as carried (section 8.2). -/
def readMode (b : Nat) : Option ReadMode := if b = 0 then some .mean else if b = 1 then some .sum else none

/-- Width as carried (section 8.2). -/
def readWidth (b : Nat) : Option SampleWidth :=
  if b = 16 then some .w16 else if b = 24 then some .w24 else if b = 32 then some .w32 else none

/-- The slot after an accepted read: a SEALED slot moves to HARVESTING and leaves the harvest queue (R149, R138). -/
def moveToHarvesting (k : Fin Config.stackSlots) (st : Stack) (s : State) : State :=
  match st.phase with
  | .sealed c _ =>
    { s.setSlot k (some { st with phase := .harvesting c }) with
      harvestQueue := removeFirst (fun j => decide (j = k)) s.harvestQueue }
  | _ => s

/-- Is this the read that moves the slot out of SEALED? -/
def isFirstRead (st : Stack) : Bool := st.sealOrder.isSome

/-- What the reply to an accepted read carries (R149). -/
def readFields (k : Fin Config.stackSlots) (st : Stack) (count : Nat) (slotAfter : Option Stack) : List Byte :=
  enc8 k ++ encWord st.serial ++ enc8 (slotStateNumber slotAfter) ++ enc8 count ++ encBool (isFirstRead st)

/-- An accepted RECORD READ: the slot moves, the read in hand is set, the REPLY is handed on (R149). -/
def acceptRead (f : Frame) (k : Fin Config.stackSlots) (st : Stack) (first count : Nat) (mode : ReadMode)
    (shift : Nat) (width : SampleWidth) (s : State) : State :=
  let n := effectiveCount st.channels first count
  let s1 := moveToHarvesting k st s
  { s1.pushReply .record f .done (readFields k st n s1.slots[k]) with
    reading := some { slot := k, first := first, count := n, mode := mode, shift := clamp 0 24 shift, width := width,
                      handed := 1, tag := f.tag } }

/-- What a SLOT_STATE refusal carries: the state, and for a slot that is not FREE its serial and pending count
(R147). -/
def slotStateFields : Option Stack → List Byte
  | none => enc8 (slotStateNumber none)
  | some st => enc8 (slotStateNumber (some st)) ++ encWord st.serial ++ enc8 st.pending

/-- RECORD READ at the Harvest Unit: the checks of R147 in order. -/
def serveRecordRead (f : Frame) (s : State) : State :=
  let first := halfAt f.payload 1
  let count := byteAt f.payload 3
  match asFin Config.stackSlots (byteAt f.payload 0), readMode (byteAt f.payload 4), readWidth (byteAt f.payload 6) with
  | some k, some mode, some width =>
    if 1023 < first ∨ count < 1 ∨ 64 < count then s.pushReply .record f .badValue (enc8 k)
    else
      match s.slots[k] with
      | none => s.pushReply .record f .slotState (slotStateFields none)
      | some st =>
        if st.isSealed then acceptRead f k st first count mode (byteAt f.payload 5) width s
        else s.pushReply .record f .slotState (slotStateFields (some st))
  | _, _, _ => s.pushReply .record f .badValue (enc8 (byteAt f.payload 0))

/-- RECORD_READ. -/
def execRecordRead (s : State) : Host.Outcome State Fault Refusal :=
  .next (request .record 40 (fixedLength 7) serveRecordRead s)

/-! ### The messages of a read (R150, R156, R157, R171) -/

/-- The RECORD HEADER of a read (R156). -/
def headerOf (r : ReadInHand) (st : Stack) : RecordHeader :=
  { vp := st.vp, fleet := st.fleet, serial := st.serial, cause := st.sealCause, fold := st.fold,
    qcRejected := st.qcRejected, qcKept := st.qcKept, dropped := st.dropped, firstT0 := st.firstT0,
    lastT0 := st.lastT0, listen := st.listen, interval := st.interval, channels := st.channels,
    corrSat := st.corrSat, mode := r.mode, shift := r.shift, width := r.width, first := r.first, count := r.count }

/-- A message of the read is handed on. With the last one, that is the REPLY, the header and `count` traces, the read
ends and the held ALERTs join the output queue (R150, R171). -/
def handMessage (r : ReadInHand) (m : Message) (s : State) : State :=
  let s1 := { s with record := s.record.push m }
  if r.handed + 1 = r.count + 2 then
    { s1 with reading := none, record := s.heldAlerts.foldl PartnerLink.push s1.record, heldAlerts := [] }
  else { s1 with reading := some { r with handed := r.handed + 1 } }

/-- The link has sent all that stood in its output queue. The next message of a read is handed on only then: "handed one at
a time as the link sends them" (R149, R171; log entry 7). -/
def PartnerLink.hasSent (l : PartnerLink) : Bool := l.output.isEmpty

/-- The Harvest Unit hands on the header of the read in hand, when its REPLY has been sent. -/
def handHeader (s : State) : State :=
  match s.reading with
  | none => s
  | some r =>
    match s.slots[r.slot] with
    | none => s
    | some st =>
      if r.handed = 1 ∧ s.record.hasSent then handMessage r (.recordHeader r.tag (headerOf r st)) s else s

/-- RECORD_HEADER. Where no header is due, or the link has not sent what it holds, none is handed on (log entries 1 and
7). -/
def execRecordHeader (s : State) : Host.Outcome State Fault Refusal := .next (handHeader s)

/-- The TRACE of the next channel of the read in hand (R157). -/
def nextTrace (r : ReadInHand) (st : Stack) (s : State) : TraceMessage :=
  let c := r.first + (r.handed - 2)
  traceMessage r.mode r.shift r.width c ((s.monitor.table.toList.getD c Channel.reset).label)
    (st.records.getD c (ChannelStack.opening st.listen))

/-- The Harvest Unit hands on the next TRACE of the read in hand, when the message before it has been sent. -/
def handTrace (s : State) : State :=
  match s.reading with
  | none => s
  | some r =>
    match s.slots[r.slot] with
    | none => s
    | some st =>
      if 2 ≤ r.handed ∧ r.handed < r.count + 2 ∧ s.record.hasSent then
        handMessage r (.trace r.tag (nextTrace r st s)) s
      else s

/-- TRACE. Where no trace is due, or the link has not sent what it holds, none is handed on (log entries 1 and 7). -/
def execTrace (s : State) : Host.Outcome State Fault Refusal := .next (handTrace s)

end Sys2Proof.Machine
end

