-- ==== Sys2Proof/Machine/Dispatch.lean ====
section
/-! DEFINITION. The meaning of each command: one arm per row of spec/opcode_table.json. -/

namespace Sys2Proof.Machine

def exec (i : Instr) (s : State) : Host.Outcome State Fault Refusal :=
  match i with
  | .powerOn => Sys2Proof.Machine.execPowerOn s
  | .frameReceipt link bytes => Sys2Proof.Machine.execFrameReceipt link bytes s
  | .linkUp link => Sys2Proof.Machine.execLinkUp link s
  | .linkDown link => Sys2Proof.Machine.execLinkDown link s
  | .messageSend link => Sys2Proof.Machine.execMessageSend link s
  | .rowBlock => Sys2Proof.Machine.execRowBlock s
  | .streamStart => Sys2Proof.Machine.execStreamStart s
  | .unknownKind link => Sys2Proof.Machine.execUnknownKind link s
  | .pilotOpen => Sys2Proof.Machine.execPilotOpen s
  | .pilotPart => Sys2Proof.Machine.execPilotPart s
  | .pilotClose => Sys2Proof.Machine.execPilotClose s
  | .pilotQuery => Sys2Proof.Machine.execPilotQuery s
  | .pilotPurge => Sys2Proof.Machine.execPilotPurge s
  | .fillTimeout slot => Sys2Proof.Machine.execFillTimeout slot s
  | .commitCompletion slot => Sys2Proof.Machine.execCommitCompletion slot s
  | .sweepAnnounce => Sys2Proof.Machine.execSweepAnnounce s
  | .sweepReport => Sys2Proof.Machine.execSweepReport s
  | .reportTimerExpiry sweep => Sys2Proof.Machine.execReportTimerExpiry sweep s
  | .sweepCancel => Sys2Proof.Machine.execSweepCancel s
  | .vpEnd => Sys2Proof.Machine.execVpEnd s
  | .lingerExpiry slot => Sys2Proof.Machine.execLingerExpiry slot s
  | .grant => Sys2Proof.Machine.execGrant s
  | .correlateCompletion lane => Sys2Proof.Machine.execCorrelateCompletion lane s
  | .mergeCompletion lane => Sys2Proof.Machine.execMergeCompletion lane s
  | .setupStream => Sys2Proof.Machine.execSetupStream s
  | .channelSet => Sys2Proof.Machine.execChannelSet s
  | .channelRead => Sys2Proof.Machine.execChannelRead s
  | .fleetSet => Sys2Proof.Machine.execFleetSet s
  | .fleetRead => Sys2Proof.Machine.execFleetRead s
  | .stackList => Sys2Proof.Machine.execStackList s
  | .stackStatus => Sys2Proof.Machine.execStackStatus s
  | .stackSeal => Sys2Proof.Machine.execStackSeal s
  | .recordRead => Sys2Proof.Machine.execRecordRead s
  | .recordHeader => Sys2Proof.Machine.execRecordHeader s
  | .trace => Sys2Proof.Machine.execTrace s
  | .stackRelease => Sys2Proof.Machine.execStackRelease s
  | .alertMask => Sys2Proof.Machine.execAlertMask s
  | .alertAck => Sys2Proof.Machine.execAlertAck s
  | .deviceStatus => Sys2Proof.Machine.execDeviceStatus s
  | .capabilityRead => Sys2Proof.Machine.execCapabilityRead s
  | .deviceClear => Sys2Proof.Machine.execDeviceClear s

end Sys2Proof.Machine
end

