-- ==== Sys2Proof/Safety.lean ====
section
/-! DEFINITION. The terms claims use: events, what stands at the head of a link's buffer, what an answered request leaves,
rows and messages numbered in order, when timers are due, and the invariants of the part that the spec's prose states
over all events. A safe step is one that takes no fault and no refusal. -/

namespace Sys2Proof.Machine

/-! ### Safe steps -/

/-- The outcome is a next state. -/
def answersNext (o : Host.Outcome State Fault Refusal) : Prop := ∃ t, o = .next t

/-! ### Events -/

/-- An event of the part: a command runs, or, with none, the queue is empty and the part does what nobody commands. -/
def happens (c : Option Instr) (s t : State) : Prop :=
  match c with
  | none => s.pending = [] ∧ step s = .next t
  | some c => exec c s = .next t

/-- Commands run one after the other. -/
def runCommands : List Instr → State → State
  | [], s => s
  | c :: l, s =>
    match exec c s with
    | .next t => runCommands l t
    | _ => s

/-! ### What is at the head of a buffer -/

/-- The Spread Link's oldest frame has this kind, tag and payload. -/
def SpreadFrame (s : State) (kind tag : Byte) (payload : List Byte) (rest : List Frame) : Prop :=
  s.spread.input = { kind := kind, tag := tag, payload := payload } :: rest

/-- The Source Link is up and its oldest request has this kind, tag and payload. -/
def SourceRequest (s : State) (kind tag : Byte) (payload : List Byte) (rest : List Frame) : Prop :=
  s.source.up = true ∧ s.source.input = { kind := kind, tag := tag, payload := payload } :: rest

/-- The Record Link is up with no read in hand, and its oldest request has this kind, tag and payload. -/
def RecordRequest (s : State) (kind tag : Byte) (payload : List Byte) (rest : List Frame) : Prop :=
  s.record.up = true ∧ s.reading = none ∧
    s.record.input = { kind := kind, tag := tag, payload := payload } :: rest

/-! ### What an answered request leaves -/

/-- The request has left the Source Link's buffer and its REPLY has joined the output queue. -/
def State.answerSource (s : State) (rest : List Frame) (m : Message) : State :=
  { s with source := { s.source with input := rest, output := s.source.output ++ [m] } }

/-- The request has left the Record Link's buffer and its REPLY has joined the output queue. -/
def State.answerRecord (s : State) (rest : List Frame) (m : Message) : State :=
  { s with record := { s.record with input := rest, output := s.record.output ++ [m] } }

/-- The SWEEP RESULTs of one event with their frame tags, from the unsolicited sequence on (R170). -/
def resultMessages (sequence : BitVec 8) : List SweepResult → List Message
  | [] => []
  | r :: l => .sweepResult sequence r :: resultMessages (sequence + 1) l

/-- The ALERT an event produces for its raising set, if it produces one (R179, R180). -/
def alertMessages (s : State) (raised : CauseSet) : List Message :=
  if raised &&& ~~~s.alerts.pending &&& ~~~s.alerts.mask = 0 then []
  else [.alert s.record.sequence (s.alerts.pending ||| raised)]

/-! ### Rows -/

/-- Rows numbered from an SSN on. -/
def numberRows (first : Ssn) : List (List RingWord) → List RingRow
  | [] => []
  | w :: l => { ssn := first, words := w } :: numberRows (first + 1) l

/-- The newest 65,536 rows of a run. -/
def newestRows (l : List RingRow) : List RingRow := l.drop (l.length - Config.ringRows)

/-- The rows of words a ROW BLOCK's payload carries, normalised (R10, R16, R17). -/
def blockRows (p : List Byte) : List (List RingWord) :=
  (readRows (byteAt p 4) (halfAt p 5) p).map fun r => r.map normalise

/-- A ROW BLOCK that passes R6 and R7, with first SSN F and n rows. -/
def GoodBlock (s : State) (p : List Byte) (first : Ssn) (n : Nat) : Prop :=
  blockMalformed p = false ∧ halfAt p 5 = s.ingest.channels ∧ wordAt p 0 = first ∧ byteAt p 4 = n

/-- How many rows a good block with first SSN F and n rows appends, gap rows included, and the SSN of the first of them: all
of it in origin state NONE; from E on under a set origin, where F is up to 4,096 rows after E or a half-range before it (R9
to R12). -/
def RowsAppended (s : State) (first : Ssn) (n : Nat) (start : Ssn) (rows : Nat) : Prop :=
  (s.ingest.origin = none ∧ start = first ∧ rows = n) ∨
    ∃ o, s.ingest.origin = some o ∧ start = o.expected ∧
      (((first - o.expected).toNat ≤ 4096 ∧ rows = (first - o.expected).toNat + n) ∨
        (1 ≤ (o.expected - first).toNat ∧ (o.expected - first).toNat ≤ 2147483647 ∧
          rows = n - (o.expected - first).toNat))

/-- Rows handed to the Channel Monitor one after the other, SSNs counted from `first`: the monitor behind them, and
whether one of them raises CHANNEL_CHANGE (R20, R30). -/
def takeRows (channels : Nat) (gap : Bool) (m : Monitor) (first : Ssn) : List (List RingWord) → Monitor × Bool
  | [] => (m, false)
  | w :: l =>
    let next := takeRows channels gap (m.takeRow channels first gap w) (first + 1) l
    (next.1, m.rowRaises channels gap w || next.2)

/-- The word of a channel in the row the ring holds at an SSN; where the ring holds none, no word. -/
def ringWord (s : State) (ssn : Ssn) (channel : Nat) : RingWord :=
  match s.ring.find? fun r => decide (r.ssn = ssn) with
  | none => { x := 0, clipped := false, dropout := false }
  | some r => r.words.getD channel { x := 0, clipped := false, dropout := false }

/-- What no ROW BLOCK or STREAM START touches: the configuration, the counters of other blocks, the merge ports, a
read in hand, the clock and the queue; and, with no sweep in the table, pilots, lanes, stacks and the Source Link. -/
def SameButForRows (s t : State) : Prop :=
  t.ingest.channels = s.ingest.channels ∧ t.ingest.interval = s.ingest.interval ∧ t.sweepCounter = s.sweepCounter ∧
    t.ports = s.ports ∧ t.stackSerials = s.stackSerials ∧ t.reading = s.reading ∧ t.alerts.mask = s.alerts.mask ∧
    t.source.input = s.source.input ∧ t.record.input = s.record.input ∧ t.clock = s.clock ∧
    t.freeCount = s.freeCount ∧ t.pending = s.pending ∧
    (s.sweeps = [] → t.sweeps = [] ∧ t.pilots = s.pilots ∧ t.lanes = s.lanes ∧ t.slots = s.slots ∧
      t.harvestQueue = s.harvestQueue ∧ t.sealOrders = s.sealOrders ∧ t.source = s.source)

/-! ### Invariant of the Sample Ring (R8, R18) -/

/-- A ring word's value fits 30 bits signed, and a word with the dropout mark is 0 and not clipped (R16, R17). -/
def RingWord.ok (w : RingWord) : Prop :=
  -536870912 ≤ w.x ∧ w.x ≤ 536870848 ∧ (w.dropout = true → w.x = 0 ∧ w.clipped = false)

/-- The rows carry consecutive SSNs from `first` on. -/
def consecutive (first : Ssn) : List RingRow → Prop
  | [] => True
  | r :: l => r.ssn = first ∧ consecutive (first + 1) l

/-- The ring holds at most 65,536 rows of C words, with consecutive SSNs up to E - 1; it is empty in origin state NONE,
and while it is empty under a set origin, E is the origin (R8, R18). -/
def RingInv (s : State) : Prop :=
  s.ring.length ≤ Config.ringRows ∧ s.ingest.channels ≤ Config.channels ∧
    (∀ r ∈ s.ring, r.words.length = s.ingest.channels ∧ ∀ w ∈ r.words, w.ok) ∧
    match s.ingest.origin with
    | none => s.ring = []
    | some o => consecutive (o.expected - BitVec.ofNat 32 s.ring.length) s.ring ∧ (s.ring = [] → o.expected = o.origin)

/-! ### Invariant of the Channel Monitor (R24, R25, R32) -/

/-- One entry: thresholds in range; a run of 4 stands with DEAD and with nothing else; an inactive entry is NORMAL with
run 0, sum 0 and no partial mark (R24, R25, R27, R32). -/
def Channel.ok (c : Channel) : Prop :=
  c.deadThreshold ≤ 32767 ∧ c.noiseThreshold ≤ 32767 ∧ c.lowRun ≤ 4 ∧ c.lastLevel ≤ 32768 ∧
    (c.monitor = .dead ↔ c.lowRun = 4) ∧
    (c.active = false → c.monitor = .normal ∧ c.lowRun = 0 ∧ c.intervalSum = 0 ∧ c.partialMark = false)

/-- Every entry is as R24 ranges it, the interval sums are those of the rows handed in the interval so far, and entries
at or above C have received nothing (R24, R25, R30). -/
def MonitorInv (s : State) : Prop :=
  (∀ c ∈ s.monitor.table.toList, c.ok ∧ c.intervalSum ≤ s.monitor.position * 536870912) ∧
    (∀ c ∈ s.monitor.table.toList.drop s.ingest.channels, c.intervalSum = 0) ∧
    s.monitor.position < Config.intervalRows ∧ (s.monitor.origin = none → s.monitor.position = 0)

/-! ### Invariant of the links (R4, R149, R150, R165, R171, R173) -/

/-- The buffers hold no more than their places, a link that is down has an empty buffer and queue, a read in hand has
its link up, and ALERTs are held only during a read. A read in hand has handed on its REPLY and not its last message, and
behind its REPLY at most one of its messages waits to be sent. -/
def LinkInv (s : State) : Prop :=
  s.spread.input.length ≤ Config.spreadPlaces ∧ s.source.input.length ≤ Config.requestPlaces ∧
    s.record.input.length ≤ Config.requestPlaces ∧ (s.spread.up = false → s.spread.input = []) ∧
    (s.source.up = false → s.source.input = [] ∧ s.source.output = []) ∧
    (s.record.up = false → s.record.input = [] ∧ s.record.output = [] ∧ s.reading = none) ∧
    (s.reading = none → s.heldAlerts = []) ∧
    ∀ r, s.reading = some r →
      1 ≤ r.handed ∧ r.handed ≤ r.count + 1 ∧ (2 ≤ r.handed → s.record.output.length ≤ 1)

/-! ### Invariants of the sweep table (R52, R63, R72, R76, R81, R84, R127) -/

/-- One entry: its timer runs exactly while it is data complete and PENDING; at WAITING it may not proceed yet and at
READY it may; its fail set is not empty exactly at FAIL (R72, R84). -/
def SweepEntry.ok (e : SweepEntry) : Prop :=
  (e.timer.isSome = true ↔ e.dataComplete = true ∧ e.qc = .pending) ∧
    (e.stage = .ready → e.dataComplete = true ∧ e.proceeds = true) ∧
    (e.stage = .waiting → ¬ (e.dataComplete = true ∧ e.proceeds = true)) ∧
    (e.failSet.isEmpty = false ↔ e.qc = .fail)

/-- Every entry is coherent (R72, R84). -/
def SweepInv (s : State) : Prop := ∀ e ∈ s.sweeps, e.ok

/-- At most 32 entries, and accepted sweeps equal SWEEP RESULTs produced plus entries held, as the sweep number counter
and the unsolicited sequence of the Source Link count them, modulo 256 (R63, R64, R76, R170). -/
def AccountInv (s : State) : Prop :=
  s.sweeps.length ≤ Config.sweepEntries ∧
    s.source.sequence = (s.sweepCounter - BitVec.ofNat 32 s.sweeps.length).setWidth 8

/-- No two entries have the same sweep number (R63). -/
def DistinctNumbers (s : State) : Prop := (s.sweeps.map SweepEntry.number).Nodup

/-- The next sweep number is not in use: the counter has not come round to the number of a sweep still held (R64). -/
def FreshNumber (s : State) : Prop := ∀ e ∈ s.sweeps, e.number ≠ s.sweepCounter

/-- S and L in the ranges of R40 and R58. -/
def windowInRange (pilotLength listen : Nat) : Prop :=
  1024 ≤ pilotLength ∧ pilotLength ≤ 16384 ∧ 256 ≤ listen ∧ listen ≤ 8192

/-- Declared lengths of pilots and listen lengths of fleets are in range, and every entry's data-complete row is
T0+S+L-2 (R40, R58, R63). -/
def WindowInv (s : State) : Prop :=
  (∀ p : Fin Config.pilots,
    match (s.pilots[p]).phase with
    | .empty => True
    | .filling n _ _ _ => 1024 ≤ n ∧ n ≤ 16384
    | .committing n _ _ => 1024 ≤ n ∧ n ≤ 16384
    | .ready n _ _ _ => 1024 ≤ n ∧ n ≤ 16384) ∧
    (∀ fl : Fin Config.fleets, 256 ≤ (s.fleets[fl]).params.listen ∧ (s.fleets[fl]).params.listen ≤ 8192) ∧
    ∀ e ∈ s.sweeps, windowInRange e.pilotLength e.copy.listen ∧
      e.dataRow = e.t0 + BitVec.ofNat 32 (e.pilotLength + e.copy.listen - 2)

/-- "While the ring is non-empty, no sweep entry outside MERGING has a T0 before the oldest row in the ring", and it is data
complete exactly where the ring reaches its data-complete row T0+S+L-2, T0 counted from the oldest row; while the ring is
empty, they all wait and none is data complete (R69, R73, R81). -/
def HistoryInv (s : State) : Prop :=
  RingInv s ∧ DistinctNumbers s ∧ WindowInv s ∧
    ∀ e ∈ s.sweeps, e.isDroppable = true →
      match s.oldest with
      | none => e.stage = .waiting ∧ e.dataComplete = false
      | some o => ssnAtOrBefore o e.t0 = true ∧
          (e.dataComplete = true ↔ (e.t0 - o).toNat + (e.pilotLength + e.copy.listen - 2) < s.ring.length)

/-- How many entries name a stack slot. -/
def entriesOf (s : State) (k : Fin Config.stackSlots) : Nat := (s.sweeps.filter fun e => decide (e.slot = k)).length

/-- How many entries name a pilot slot. -/
def pinsOf (s : State) (p : Fin Config.pilots) : Nat := (s.sweeps.filter fun e => decide (e.pilot = p)).length

/-- A pilot slot is READY. -/
def PilotPhase.isReady : PilotPhase → Bool
  | .ready .. => true
  | _ => false

/-- A stack slot is DRAINING. -/
def Stack.isDraining (st : Stack) : Bool :=
  match st.phase with
  | .draining _ => true
  | _ => false

/-- Pins and pending counts count the entries; a pinned pilot is READY; no entry names a FREE, SEALED or HARVESTING slot,
and a DRAINING slot has one (R52, R127, R134). -/
def ClaimInv (s : State) : Prop :=
  DistinctNumbers s ∧
    (∀ p : Fin Config.pilots, (s.pilots[p]).pins = pinsOf s p ∧
      (1 ≤ (s.pilots[p]).pins → (s.pilots[p]).phase.isReady = true)) ∧
    ∀ k : Fin Config.stackSlots,
      match s.slots[k] with
      | none => entriesOf s k = 0
      | some st => st.pending = entriesOf s k ∧ (st.isSealed = true → st.pending = 0) ∧
          (st.isDraining = true → 1 ≤ st.pending)

/-! ### Invariant of the Stack Store (R59, R138, R139, R146) -/

/-- A stack slot is in state SEALED. -/
def isSealedSlot (slot : Option Stack) : Bool :=
  match slot with
  | none => false
  | some st => st.sealOrder.isSome

/-- A stack slot is in state HARVESTING. -/
def isHarvestingSlot (slot : Option Stack) : Bool :=
  match slot with
  | none => false
  | some st => st.isSealed && st.sealOrder.isNone

/-- A fleet's open slot is in OPEN or LINGER for this fleet, and every slot in OPEN or LINGER is its fleet's open slot;
the harvest queue holds exactly the SEALED slots, each once; a read in hand reads a HARVESTING slot (R59, R138, R139,
R146). -/
def StackInv (s : State) : Prop :=
  (∀ (fl : Fin Config.fleets) (k : Fin Config.stackSlots), (s.fleets[fl]).openSlot = some k →
    match s.slots[k] with
    | none => False
    | some st => st.isJoinable = true ∧ st.fleet = fl) ∧
    (∀ k : Fin Config.stackSlots,
      match s.slots[k] with
      | none => True
      | some st => st.isJoinable = true → (s.fleets[st.fleet]).openSlot = some k) ∧
    s.harvestQueue.Nodup ∧ (∀ k : Fin Config.stackSlots, k ∈ s.harvestQueue ↔ isSealedSlot s.slots[k] = true) ∧
    match s.reading with
    | none => True
    | some r => isHarvestingSlot s.slots[r.slot] = true

/-! ### Invariant of the lanes and the merge ports (R72, R98, R112) -/

/-- A lane's job and the entry it works on name each other, and the entry names the job's stack slot (R98). -/
def jobEntry (s : State) (j : Job) (stage : Stage) : Prop :=
  ∃ e ∈ s.sweeps, e.number = j.sweep ∧ e.stage = stage ∧ e.slot = j.slot

/-- A lane in MERGE_WAIT or MERGING with a job. -/
def Lane.merges (v : Lane) (j : Job) : Prop := (∃ sc, v = .mergeWait j sc) ∨ ∃ sc, v = .merging j sc

/-- Every job has its entry at its stage, every entry at CORRELATING or MERGING is settled and has its job; a port's
holder is the MERGING lane of its slot and its waiting list holds the slot's MERGE_WAIT lanes, each once; a free port has
nobody waiting (R72, R98, R112). -/
def LaneInv (s : State) : Prop :=
  DistinctNumbers s ∧
    (∀ l : Fin Config.lanes,
      match s.lanes[l] with
      | .idle => ∀ e ∈ s.sweeps, e.lane ≠ some l
      | .correlating j => jobEntry s j (.correlating l)
      | .mergeWait j _ => jobEntry s j (.merging l) ∧ l ∈ (s.ports[j.slot]).waiting
      | .merging j _ => jobEntry s j (.merging l) ∧ (s.ports[j.slot]).holder = some l) ∧
    (∀ e ∈ s.sweeps,
      match e.stage with
      | .correlating l => e.qc ≠ .pending ∧ ∃ j, s.lanes[l] = .correlating j ∧ j.sweep = e.number
      | .merging l => e.qc ≠ .pending ∧ ∃ j, (s.lanes[l]).merges j ∧ j.sweep = e.number
      | _ => True) ∧
    ∀ k : Fin Config.stackSlots,
      (s.ports[k]).waiting.Nodup ∧
        (∀ l ∈ (s.ports[k]).waiting, ∃ j sc, s.lanes[l] = .mergeWait j sc ∧ j.slot = k) ∧
        match (s.ports[k]).holder with
        | none => (s.ports[k]).waiting = []
        | some l => ∃ j sc, s.lanes[l] = .merging j sc ∧ j.slot = k

/-! ### Timers and grants (R45, R92, R99, R131) -/

/-- No grant can be made: no sweep is READY or no lane is IDLE (R99). -/
def NoGrant (s : State) : Prop := chooseSweep s.sweeps = none ∨ chooseLane s = none

/-- A fill, report or linger timer runs (R45, R92, R131). -/
def RunsTimer (s : State) (timer : Timer) : Prop :=
  (∃ (p : Fin Config.pilots) (n : Nat) (i : Fin 4) (held : List (BitVec 16)),
    (s.pilots[p]).phase = .filling n i held timer) ∨
    (∃ e ∈ s.sweeps, e.timer = some timer) ∨
    ∃ (k : Fin Config.stackSlots) (st : Stack), s.slots[k] = some st ∧ st.phase = .linger timer

/-- "No later than t+1 ms after it was started": no running timer is one millisecond past its deadline. -/
def NoTimerLate (s : State) : Prop := ∀ timer, RunsTimer s timer → s.clock ≤ timer.deadline

/-- Nothing happens of itself before the clock comes to a moment: no timer has its latest moment by then, and, where time
has to pass, no grant is due. -/
def CalmUntil (s : State) (moment : Nat) : Prop :=
  (∀ timer, RunsTimer s timer → moment ≤ timer.deadline) ∧ (s.clock < moment → NoGrant s)

/-- The expiries whose latest moment comes with the next millisecond: fill timers by slot, report timers in table order,
linger timers by slot (log entry 6). -/
def dueCommands (s : State) : List Instr :=
  ((List.finRange Config.pilots).filterMap fun p : Fin Config.pilots =>
    match (s.pilots[p]).phase with
    | .filling _ _ _ t => if t.deadline = s.clock then some (.fillTimeout p) else none
    | _ => none) ++
  (s.sweeps.filterMap fun e =>
    match e.timer with
    | some t => if t.deadline = s.clock then some (.reportTimerExpiry e.number) else none
    | none => none) ++
  (List.finRange Config.stackSlots).filterMap fun k : Fin Config.stackSlots =>
    match s.slots[k] with
    | none => none
    | some st =>
      match st.phase with
      | .linger t => if t.deadline = s.clock then some (.lingerExpiry k) else none
      | _ => none

/-! ### Sealing (R133, R135) -/

/-- A slot in OPEN or LINGER after its seal: DRAINING where sweeps are pending, else SEALED with the next seal order
number at the end of the harvest queue; its fleet has no open slot (R133, R135). -/
def State.sealedAs (s : State) (k : Fin Config.stackSlots) (cause : SealCause) (st : Stack) : State :=
  let s1 := s.setFleet st.fleet { s.fleets[st.fleet] with openSlot := none }
  if 1 ≤ st.pending then s1.setSlot k (some { st with phase := .draining cause })
  else
    { s1.setSlot k (some { st with phase := .sealed cause s.sealOrders }) with
      sealOrders := s.sealOrders + 1, harvestQueue := s.harvestQueue ++ [k] }

/-- The raising set of a seal: VP_SEALED where the slot enters SEALED (R135). -/
def sealRaises (st : Stack) : CauseSet := if 1 ≤ st.pending then 0 else 1

/-! ### Resolution (R76, R77) -/

/-- What a resolution with an outcome but DROPPED_CLEAR does to the slot-wide counts (R76, R77). -/
def Stack.countedFor (st : Stack) (out : SweepOutcome) : Stack :=
  { st with
    pending := st.pending - 1
    tag := st.tag + 1
    qcRejected := if out = .rejectedQc then st.qcRejected + 1 else st.qcRejected
    dropped :=
      if out = .cancelled ∨ out = .droppedOverrun ∨ out = .droppedRestart then st.dropped + 1 else st.dropped }

/-- A DRAINING slot whose last pending sweep is being resolved goes SEALED with this cause (R134). -/
def Stack.drainsWith (st : Stack) : Option SealCause :=
  match st.phase with
  | .draining c => if st.pending ≤ 1 then some c else none
  | _ => none

/-- The part after the resolution of an entry, but for the SWEEP RESULT and the alert: the entry has left the table, its
pin is released, its job aborted, its stack slot counted and, where it was the last of a DRAINING slot, SEALED (R52, R76,
R77, R117, R134, R135). -/
def State.resolvedAs (s : State) (e : SweepEntry) (out : SweepOutcome) : State :=
  let pilot := s.pilots[e.pilot]
  let s1 : State :=
    { s.setPilot e.pilot { pilot with pins := pilot.pins - 1 } with
      sweeps := s.sweeps.filter fun x => decide (x.number ≠ e.number) }
  let s2 : State :=
    match e.stage with
    | .correlating l => s1.setLane l .idle
    | _ => s1
  match s.slots[e.slot] with
  | none => s2
  | some st =>
    match st.drainsWith with
    | none => s2.setSlot e.slot (some (st.countedFor out))
    | some c =>
      { s2.setSlot e.slot (some { st.countedFor out with phase := .sealed c s.sealOrders }) with
        sealOrders := s.sealOrders + 1, harvestQueue := s.harvestQueue ++ [e.slot] }

/-- The raising set of a resolution by its stack slot: VP_SEALED where the slot enters SEALED (R135). -/
def resolutionRaises (s : State) (e : SweepEntry) : CauseSet :=
  match s.slots[e.slot] with
  | none => 0
  | some st => if st.drainsWith.isSome then 1 else 0

/-- The part after several resolutions with one outcome, but for the SWEEP RESULTs and the alert. -/
def State.resolvedAllAs (s : State) (out : SweepOutcome) : List SweepEntry → State
  | [] => s
  | e :: l => (s.resolvedAs e out).resolvedAllAs out l

/-- What the resolutions of one event leave in pilots, lanes, stack slots, harvest queue and seal orders, their SWEEP
RESULTs on the Source Link in order, and VP_SEALED pending where one of them seals a slot (R52, R76, R77, R117, R134,
R135, R170). -/
def ResolvedInOneEvent (s t : State) (out : SweepOutcome) (gone : List SweepEntry) : Prop :=
  let u := s.resolvedAllAs out gone
  t.pilots = u.pilots ∧ t.lanes = u.lanes ∧ t.slots = u.slots ∧ t.harvestQueue = u.harvestQueue ∧
    t.sealOrders = u.sealOrders ∧
    t.source.sequence = s.source.sequence + BitVec.ofNat 8 gone.length ∧
    (s.source.up = true → t.source.output = s.source.output ++
      resultMessages s.source.sequence (gone.map fun e => e.result out none)) ∧
    (s.source.up = false → t.source.output = s.source.output) ∧
    t.alerts.pending.getLsbD 0 = (s.alerts.pending.getLsbD 0 || decide (u.harvestQueue ≠ s.harvestQueue))

/-! ### Bounds of a stack (R127, R128) -/

/-- A scratch record as R110 has it: a weight in 1..65,535 without a cause, none with one; values of 32 bits. -/
def TraceRecord.ok (r : TraceRecord) : Prop :=
  (r.cause = none → 1 ≤ r.weight ∧ r.weight ≤ 65535) ∧ (r.cause ≠ none → r.weight = 0) ∧
    ∀ v ∈ r.trace, -2147483648 ≤ v ∧ v ≤ 2147483647

/-- The bounds R128 states for a channel of a stack with a given fold. -/
def ChannelStack.ok (fold : Nat) (c : ChannelStack) : Prop :=
  c.accepted + c.edited ≤ fold ∧ c.accepted ≤ c.weightSum ∧ c.weightSum ≤ 65535 * c.accepted ∧
    ∀ a ∈ c.acc, a.natAbs ≤ 65535 * 2147483648 * c.accepted

/-- An occupied slot: fold plus pending at most 32, qc_kept at most the fold, first and last T0 present exactly while the
fold is 1 or more, and one record of L accumulators within R128's bounds for each of the stream's channels (R122, R123,
R127, R128). -/
def Stack.ok (channels : Nat) (st : Stack) : Prop :=
  st.fold + st.pending ≤ 32 ∧ st.qcKept ≤ st.fold ∧ (st.firstT0.isSome = true ↔ 1 ≤ st.fold) ∧
    (st.lastT0.isSome = true ↔ 1 ≤ st.fold) ∧ st.channels = channels ∧ st.records.length = channels ∧
    ∀ c ∈ st.records, c.ok st.fold ∧ c.acc.length = st.listen

/-- A scratch: one record for each of the stream's channels, as R110 has it. -/
def Scratch.ok (channels : Nat) (sc : Scratch) : Prop :=
  sc.records.length = channels ∧ ∀ r ∈ sc.records, r.ok

/-- Every occupied slot is within the bounds of R122, R123, R127 and R128, and every lane's snapshot and scratch has the
stream's channels (R101, R110). -/
def BoundsInv (s : State) : Prop :=
  (∀ (k : Fin Config.stackSlots) (st : Stack), s.slots[k] = some st → st.ok s.ingest.channels) ∧
    ∀ l : Fin Config.lanes,
      match s.lanes[l] with
      | .idle => True
      | .correlating j => j.snapshot.length = s.ingest.channels
      | .mergeWait _ sc => sc.ok s.ingest.channels
      | .merging _ sc => sc.ok s.ingest.channels

end Sys2Proof.Machine
end

