-- ==== Sys2Proof/Certificates/Slice0/Obligations.lean ====
section
/-! DEFINITION. The statements for the provers, each with the rule of the spec it formalises; OBLIGATIONS.json lists
them. A request is given by the fields its payload carries, at the widths of section 9.6. -/

open Sys2Proof Sys2Proof.Machine

/-! ### The queue, reset and the whole machine -/

/-- A step runs the command at the front of the queue with the queue's rest (98; log entry 17: the queue is the model's
own). -/
def Obligations.StepRunsFrontCommand : Prop :=
  ∀ (s : State) (c : Instr) (rest : List Instr), s.pending = c :: rest →
    step s = exec c { s with pending := rest }

/-- Every command answers a next state and leaves the queue of commands alone: no command takes a fault or a refusal
(R5, R166, R167). That a command whose event is not due leaves the state (log entry 1), and the queue itself (log entry
17), are the model's choices. -/
def Obligations.EveryCommandCompletes : Prop :=
  ∀ (c : Instr) (s : State), ∃ t, exec c s = .next t ∧ t.pending = s.pending

/-- POWER_ON gives every item its power-on value, whatever the state before; the queue of commands and the argument of
the free values are not the part's and stay (log entry 18). That the clock stands at 0 (log entry 3) and that the lists of
sent frames are empty (log entry 16) are the model's choices. -/
def Obligations.PowerOnGivesResetValues : Prop :=
  ∀ s : State, ∃ t, exec .powerOn s = .next t ∧ t.pending = s.pending ∧ t.freeCount = s.freeCount ∧
    t.ingest = { channels := 0, interval := 2, origin := none, discarded := 0, gapRows := 0, staleRows := 0,
                 dropouts := 0 } ∧
    t.ring = [] ∧ t.monitor.origin = none ∧ t.monitor.position = 0 ∧
    (∀ i : Fin Config.channels, t.monitor.table[i] =
      { active := false, label := 0, deadThreshold := 16, noiseThreshold := 32767, monitor := .normal, lowRun := 0,
        lastLevel := 0, latched := { deadSeen := false, noisySeen := false, clipSeen := false, dropoutSeen := false },
        intervalSum := 0, partialMark := false }) ∧
    (∀ p : Fin Config.pilots, t.pilots[p] = { phase := .empty, generation := 0, pins := 0, lastResult := .none }) ∧
    (∀ fl : Fin Config.fleets, t.fleets[fl] =
      { defined := false,
        params :=
          { vibrators := 1, listen := 4096, shift := none, weight := .plain, burst := 0, clipLimit := 0,
            peakPhase := 1800, meanPhase := 1800, distortion := 1000, minForce := 0, policy := .keep,
            noReport := .pass, reportTimeout := 5000, linger := 1000, minSlip := 0 },
        lastT0 := none, openSlot := none }) ∧
    t.sweeps = [] ∧ t.sweepCounter = 0 ∧ (∀ l : Fin Config.lanes, t.lanes[l] = .idle) ∧
    (∀ k : Fin Config.stackSlots, t.slots[k] = none ∧ t.ports[k] = { holder := none, waiting := [] }) ∧
    t.harvestQueue = [] ∧ t.stackSerials = 0 ∧ t.sealOrders = 0 ∧ t.reading = none ∧
    t.alerts = { pending := 0, mask := 0 } ∧
    t.spread = { up := false, input := [], crcDiscards := 0, overflows := 0 } ∧
    t.source = { up := false, input := [], output := [], crcDiscards := 0, overflows := 0, sequence := 0, sent := [] } ∧
    t.record = { up := false, input := [], output := [], crcDiscards := 0, overflows := 0, sequence := 0, sent := [] } ∧
    t.heldAlerts = [] ∧ t.clock = 0

/-- Every invariant the statements below say that steps keep holds right after power-on. -/
def Obligations.InvariantsHoldAtReset : Prop :=
  RingInv State.reset ∧ MonitorInv State.reset ∧ LinkInv State.reset ∧ SweepInv State.reset ∧ AccountInv State.reset ∧
    HistoryInv State.reset ∧ ClaimInv State.reset ∧ StackInv State.reset ∧ LaneInv State.reset ∧
    BoundsInv State.reset ∧ NoTimerLate State.reset

/-! ### Invariants that every step keeps -/

/-- The Sample Ring stays a run of at most 65,536 rows of C words with consecutive SSNs that ends before E, and it is
empty in origin state NONE (R8, R18). -/
def Obligations.RingStaysConsecutive : Prop :=
  ∀ s t : State, RingInv s → step s = .next t → RingInv t

/-- Every entry of the channel table stays in the ranges of R24; a low-interval run of 4 stands with DEAD and only with
it (R32), an inactive entry stays NORMAL (R25), and entries at or above C receive nothing (R25). -/
def Obligations.MonitorStaysInRange : Prop :=
  ∀ s t : State, RingInv s → MonitorInv s → step s = .next t → MonitorInv t

/-- Input buffers hold at most 16, 4 and 4 frames; a link that is down holds no frame and no message; a read in hand
has its link up, and ALERTs are held only during a read (R4, R151, R165, R171, R173). A read in hand has handed on its
REPLY but not its last message, and from its RECORD HEADER on the link's queue holds at most one message, since they are
handed on one at a time as the link sends them (R149, R150, R171; the count handed is log entry 8, and that a message waits
until the queue is empty log entry 7). -/
def Obligations.LinksStayBounded : Prop :=
  ∀ s t : State, LinkInv s → step s = .next t → LinkInv t

/-- Every sweep entry stays coherent: the report timer runs exactly while the entry is data complete and PENDING, READY
entries may proceed and WAITING entries may not yet, and the fail set is not empty exactly at FAIL (R72, R84). -/
def Obligations.SweepEntriesStayCoherent : Prop :=
  ∀ s t : State, SweepInv s → step s = .next t → SweepInv t

/-- The sweep table holds at most 32 entries, and the sweeps accepted equal the SWEEP RESULTs produced plus the entries
held, as the two counters show it modulo 256 (R63, R76). -/
def Obligations.EveryAcceptedSweepIsAccountedFor : Prop :=
  ∀ s t : State, AccountInv s → step s = .next t → AccountInv t

/-- While the ring is non-empty, no sweep entry outside MERGING has a T0 before the oldest row, and it is data complete
exactly where the ring reaches its data-complete row T0+S+L-2, whichever row of whichever block, gap rows included, brought
it there; while the ring is empty none is data complete. Pilots, fleets and entries keep S and L in range (R19, R20, R40,
R58, R63, R69, R73, R81). The premise that the next sweep number is not in use rules out a counter that has come round to a
sweep still held. -/
def Obligations.NoSweepOutlivesItsHistory : Prop :=
  ∀ s t : State, HistoryInv s → FreshNumber s → step s = .next t → HistoryInv t

/-- A pilot's pins and a stack slot's pending count stay the numbers of entries that name them; a pinned pilot is READY,
and SEALED, HARVESTING and FREE slots are named by no entry (R52, R127). -/
def Obligations.PinsAndPendingCountEntries : Prop :=
  ∀ s t : State, ClaimInv s → StackInv s → FreshNumber s → step s = .next t → ClaimInv t

/-- Each fleet's open slot is its one slot in OPEN or LINGER; the harvest queue holds exactly the SEALED slots, each
once; a read in hand reads a HARVESTING slot (R59, R138, R139). -/
def Obligations.OpenSlotsAndHarvestQueueAgree : Prop :=
  ∀ s t : State, StackInv s → step s = .next t → StackInv t

/-- Lane jobs, sweep entries and merge ports name one another: a port is held by the MERGING lane of its slot alone and
its waiting list holds the slot's MERGE_WAIT lanes (R98, R112). -/
def Obligations.LanesAndMergePortsAgree : Prop :=
  ∀ s t : State, SweepInv s → LaneInv s → FreshNumber s → step s = .next t → LaneInv t

/-! ### Rules about all commands -/

/-- Between power-ons, C and the interval code change at SETUP STREAM alone, the mask set at ALERT MASK alone, fleet
parameters at FLEET SET alone, and active flags, labels and thresholds at CHANNEL SET alone: not at another command, nor
at the grants and timer expiries of an empty queue (R1, R24, R58, R178). -/
def Obligations.OnlyTheirRequestsWriteSettings : Prop :=
  ∀ (c : Option Instr) (s t : State), happens c s t → c ≠ some .powerOn →
    (c ≠ some .setupStream → t.ingest.channels = s.ingest.channels ∧ t.ingest.interval = s.ingest.interval) ∧
    (c ≠ some .alertMask → t.alerts.mask = s.alerts.mask) ∧
    (c ≠ some .fleetSet → ∀ fl : Fin Config.fleets,
      (t.fleets[fl]).params = (s.fleets[fl]).params ∧ (t.fleets[fl]).defined = (s.fleets[fl]).defined) ∧
    (c ≠ some .channelSet → ∀ i : Fin Config.channels,
      (t.monitor.table[i]).active = (s.monitor.table[i]).active ∧
        (t.monitor.table[i]).label = (s.monitor.table[i]).label ∧
        (t.monitor.table[i]).deadThreshold = (s.monitor.table[i]).deadThreshold ∧
        (t.monitor.table[i]).noiseThreshold = (s.monitor.table[i]).noiseThreshold)

/-- Nothing but STACK RELEASE, DEVICE CLEAR and POWER_ON touches a SEALED or HARVESTING slot that no sweep, fleet or
merge names, but for the first RECORD READ's move from SEALED to HARVESTING: no other command, and no grant or timer
expiry of an empty queue (R139, R158). -/
def Obligations.SealedStacksAreUntouched : Prop :=
  ∀ (c : Option Instr) (s t : State) (k : Fin Config.stackSlots) (st : Stack), happens c s t →
    c ≠ some .powerOn → c ≠ some .stackRelease → c ≠ some .deviceClear →
    s.slots[k] = some st → st.isSealed = true → entriesOf s k = 0 →
    (∀ fl : Fin Config.fleets, (s.fleets[fl]).openSlot ≠ some k) →
    (∀ (l : Fin Config.lanes) (j : Job) (sc : Scratch), s.lanes[l] = .merging j sc → j.slot ≠ k) →
    (c ≠ some .recordRead → t.slots[k] = some st) ∧
      ∃ phase, t.slots[k] = some { st with phase := phase } ∧
        ({ st with phase := phase } : Stack).isSealed = true ∧
        ({ st with phase := phase } : Stack).sealCause = st.sealCause

/-- The sweep number counter is 0 after power-on. An event either keeps the counter and brings no new sweep number into
the table, or it is an announcement that adds one entry, at the newest end and with the counter's value as its number,
and increases the counter by one modulo 2^32. An announcement answered DONE is of the second kind (R64). -/
def Obligations.SweepNumbersAreHandedOutOnce : Prop :=
  State.reset.sweepCounter = 0 ∧
    (∀ (c : Option Instr) (s t : State), happens c s t → c ≠ some .powerOn →
      (t.sweepCounter = s.sweepCounter ∧ ∀ e ∈ t.sweeps, ∃ x ∈ s.sweeps, x.number = e.number) ∨
        c = some .sweepAnnounce ∧ t.sweepCounter = s.sweepCounter + 1 ∧
          ∃ e, e.number = s.sweepCounter ∧ t.sweeps = s.sweeps ++ [e]) ∧
    ∀ (s t : State) (tag : Byte) (fields : List Byte), exec .sweepAnnounce s = .next t →
      t.source.output = s.source.output ++ [.reply tag 21 .done fields] →
      t.sweepCounter = s.sweepCounter + 1 ∧ ∃ e, e.number = s.sweepCounter ∧ t.sweeps = s.sweeps ++ [e]

/-! ### Frames -/

/-- A frame made of a kind, a frame tag and a payload passes the envelope check as exactly those, and bytes that pass
the check are the frame of what they are read as (R162, section 9.8). A message leaves as the frame of its kind, its tag
and its payload, and the payloads of SWEEP RESULT, ALERT, RECORD HEADER and TRACE have every field at its place (R78,
R156, R157, sections 9.6 and 9.8); a REPLY has the kind answered, the outcome and the result fields (R168). That the bits
of a SWEEP RESULT's fail set stand in the order of R63 is the model's reading (log entry 13). -/
def Obligations.FramesRoundTrip : Prop :=
  (∀ (kind tag : Byte) (payload : List Byte), payload.length ≤ 32832 →
    readFrame (frameBytes kind tag payload) = some { kind := kind, tag := tag, payload := payload }) ∧
    (∀ (bytes : List Byte) (f : Frame), readFrame bytes = some f →
      f.payload.length ≤ 32832 ∧ bytes = frameBytes f.kind f.tag f.payload) ∧
    (∀ (tag kind : Byte) (code : Code) (fields : List Byte),
      (Message.reply tag kind code fields).bytes = frameBytes 128 tag (kind :: BitVec.ofNat 8 code.number :: fields)) ∧
    (∀ (tag : Byte) (causes : CauseSet), (Message.alert tag causes).bytes = frameBytes 130 tag [causes]) ∧
    (∀ (tag : Byte) (r : SweepResult), ∃ p : List Byte, (Message.sweepResult tag r).bytes = frameBytes 129 tag p ∧
      p.length = 27 ∧ wordAt p 0 = r.number ∧ byteAt p 4 = r.fleet ∧ wordAt p 5 = r.vp ∧ wordAt p 9 = r.t0 ∧
      byteAt p 13 = r.slot ∧
      byteAt p 14 = (match r.outcome with
        | .merged => 0 | .rejectedQc => 1 | .cancelled => 2 | .droppedOverrun => 3 | .droppedRestart => 4
        | .droppedClear => 5) ∧
      byteAt p 15 = (match r.stage with | .waiting => 0 | .ready => 1 | .correlating _ => 2 | .merging _ => 3) ∧
      byteAt p 16 = (if r.dataComplete then 1 else 0) ∧
      byteAt p 17 = (match r.qc with | .pending => 0 | .pass => 1 | .fail => 2 | .noReport => 3) ∧
      (∀ i : Nat, (p.getD 18 0).getLsbD i = ([r.failSet.missing, r.failSet.phasePeak, r.failSet.phaseMean,
        r.failSet.distortion, r.failSet.force].getD i false)) ∧
      (r.counts = none → halfAt p 19 = 0 ∧ halfAt p 21 = 0 ∧ wordAt p 23 = 0) ∧
      ∀ c, r.counts = some c → c.edited < 65536 → c.inactive < 65536 →
        halfAt p 19 = c.edited ∧ halfAt p 21 = c.inactive ∧ wordAt p 23 = BitVec.ofNat 32 c.saturated) ∧
    (∀ (tag : Byte) (h : RecordHeader), h.fold < 256 → h.qcKept < 256 → h.listen < 65536 → h.channels < 65536 →
      h.shift < 256 → h.first < 65536 → h.count < 256 →
      ∃ p : List Byte, (Message.recordHeader tag h).bytes = frameBytes 131 tag p ∧ p.length = 41 ∧
        wordAt p 0 = h.vp ∧ byteAt p 4 = h.fleet ∧
        (∀ c, h.cause = some c → byteAt p 5 =
          (match c with | .lingerExpired => 0 | .recorderSeal => 1 | .fleetMoved => 2)) ∧
        byteAt p 6 = h.fold ∧ byteAt p 7 = h.qcKept ∧ wordAt p 8 = h.serial ∧ wordAt p 12 = h.qcRejected ∧
        wordAt p 16 = h.dropped ∧ wordAt p 20 = h.firstT0.getD 0 ∧ wordAt p 24 = h.lastT0.getD 0 ∧
        byteAt p 28 = (if 1 ≤ h.fold then 1 else 0) ∧ byteAt p 29 = (if h.corrSat then 1 else 0) ∧
        halfAt p 30 = h.listen ∧ halfAt p 32 = h.channels ∧ byteAt p 34 = h.interval ∧
        byteAt p 35 = (match h.mode with | .mean => 0 | .sum => 1) ∧ byteAt p 36 = h.shift ∧
        byteAt p 37 = (match h.width with | .w16 => 16 | .w24 => 24 | .w32 => 32) ∧ halfAt p 38 = h.first ∧
        byteAt p 40 = h.count) ∧
    ∀ (tag : Byte) (m : TraceMessage), m.channel < 65536 → m.accepted < 256 → m.edited < 256 →
      m.weightSum < 4294967296 → m.saturated < 65536 →
      ∃ p : List Byte, (Message.trace tag m).bytes = frameBytes 132 tag p ∧
        p.length = 16 + m.samples.length * (m.width.bits / 8) ∧
        halfAt p 0 = m.channel ∧ wordAt p 2 = m.label ∧ byteAt p 6 = m.accepted ∧ byteAt p 7 = m.edited ∧
        (∀ i : Nat, (p.getD 8 0).getLsbD i = [m.causes.dead, m.causes.clip, m.causes.burst].getD i false) ∧
        (∀ i : Nat, (p.getD 9 0).getLsbD i = [m.isEmpty, m.outSat].getD i false) ∧
        wordAt p 10 = BitVec.ofNat 32 m.weightSum ∧ halfAt p 14 = m.saturated ∧
        ∀ (k : Nat) (v : Int), m.samples[k]? = some v →
          -(2 ^ (m.width.bits - 1)) ≤ v → v ≤ 2 ^ (m.width.bits - 1) - 1 →
          (m.width = .w16 → (BitVec.ofNat 16 (halfAt p (16 + 2 * k))).toInt = v) ∧
          (m.width = .w24 → (BitVec.ofNat 24 (byteAt p (16 + 3 * k) * 65536 + halfAt p (17 + 3 * k))).toInt = v) ∧
          (m.width = .w32 → (wordAt p (16 + 4 * k)).toInt = v)

/-- The CRC of the nine bytes "123456789" is CBF43926, and two byte strings that differ in exactly one byte have
different CRCs (R163). -/
def Obligations.CrcDetectsAByteChange : Prop :=
  crc32 [49, 50, 51, 52, 53, 54, 55, 56, 57] = 0xCBF43926#32 ∧
    ∀ (before after : List Byte) (a b : Byte), a ≠ b → crc32 (before ++ a :: after) ≠ crc32 (before ++ b :: after)

/-! ### Arithmetic of the samples -/

/-- A sample word is read most significant byte first with its gain step in bits 1..0 and its valid flag in bit 7 of the
last byte; a valid word's value is s × 4^(3-g), within 2^29, and carries the clipped mark exactly at a full-scale code;
an invalid word is 0 with the dropout mark alone (R16, R17, section 9.8). -/
def Obligations.SamplesAreNormalised : Prop :=
  (∀ b0 b1 b2 b3 : Byte, readSampleWord [b0, b1, b2, b3] =
    { raw := (b0 ++ b1 ++ b2).toInt, gain := (b3.extractLsb' 0 2).toNat, valid := b3.msb }) ∧
    ∀ w : SampleWord, w.gain ≤ 3 → -8388608 ≤ w.raw → w.raw ≤ 8388607 →
      (w.valid = true → (normalise w).x = w.raw * 4 ^ (3 - w.gain) ∧ (normalise w).x.natAbs ≤ 536870912 ∧
        ((normalise w).clipped = true ↔ w.raw = -8388608 ∨ w.raw = 8388607) ∧ (normalise w).dropout = false) ∧
      (w.valid = false → normalise w = { x := 0, clipped := false, dropout := true })

/-- For a channel with no cause the trace at lag k is scaled from Q[k] = Σ x[T0+k+n] × p[n], n = 0..S-1, for each lag
0..L-1, and its saturated values are counted over the lags; a channel with a cause has no trace and no count; and Q[k] is
within 2^58 (R107, R108). -/
def Obligations.CorrelationSumsAreConvolutions : Prop :=
  ∀ (j : Job) (pilot : List Int) (v : ChannelView) (words : List RingWord),
    words.length + 1 = pilot.length + j.listen →
    let x : Nat → Int := fun i => (words.getD i { x := 0, clipped := false, dropout := false }).x
    let sum : Nat → Int := fun k => ∑ n ∈ Finset.range pilot.length, x (k + n) * pilot.getD n 0
    (traceCause j v words = none →
      (correlateChannel j pilot v words).1.trace =
        (List.range j.listen).map (fun k => correlatedValue j.shift (sum k)) ∧
        (correlateChannel j pilot v words).2 = saturationCount j.shift ((List.range j.listen).map sum)) ∧
      (traceCause j v words ≠ none →
        (correlateChannel j pilot v words).1.trace = [] ∧ (correlateChannel j pilot v words).2 = 0) ∧
      (pilot.length ≤ 16384 → (∀ w ∈ words, w.x.natAbs ≤ 536870912) → (∀ p ∈ pilot, p.natAbs ≤ 32768) →
        ∀ k, k < j.listen → (sum k).natAbs ≤ 2 ^ 58)

/-- A correlation sum is divided by 2^CS, rounded half away from zero, and saturated to 32 bits; the saturation count
counts the values that saturation changes (R108). -/
def Obligations.CorrelatedValuesRoundAndSaturate : Prop :=
  ∀ (shift : Nat) (q : Int), ∃ m : Nat,
    2 * (2 ^ shift * m) ≤ 2 * q.natAbs + 2 ^ shift ∧ 2 * q.natAbs < 2 * (2 ^ shift * m) + 2 ^ shift ∧
      (let scaled : Int := if q < 0 then -(m : Int) else m
       correlatedValue shift q = max (-2147483648) (min 2147483647 scaled) ∧
         saturationCount shift [q] = if -2147483648 ≤ scaled ∧ scaled ≤ 2147483647 then 0 else 1) ∧
      ∀ qs : List Int, saturationCount shift (q :: qs) = saturationCount shift [q] + saturationCount shift qs

/-- W is the floor of the mean square of x >> 14 over the window, within 2^30. A trace with a cause has weight 0; without
one it has weight 1 in PLAIN mode and min(65,535, floor(2^30 / max(W, 16,384))) in DIVERSITY mode, which lies in
1..65,535 and does not rise with W (R106, R109). -/
def Obligations.WindowPowerSetsTheWeight : Prop :=
  (∀ (words : List RingWord) (n : Nat),
    ((windowPower words n : Nat) : Int) = (words.map fun w : RingWord => ((w.x >>> 14) ^ 2 : Int)).sum / (n : Int) ∧
      ((∀ w ∈ words, w.x.natAbs ≤ 536870912) → words.length ≤ n → windowPower words n ≤ 1073741824)) ∧
    (∀ (j : Job) (pilot : List Int) (v : ChannelView) (words : List RingWord),
      let w := (correlateChannel j pilot v words).1.weight
      let power := windowPower words (j.pilotLength + j.listen - 1)
      (traceCause j v words ≠ none → w = 0) ∧
        (traceCause j v words = none → j.weight = .plain → w = 1) ∧
        (traceCause j v words = none → j.weight = .diversity → w = min 65535 (1073741824 / max power 16384))) ∧
    ∀ p q : Nat, p ≤ q → q ≤ 1073741824 →
      1 ≤ traceWeight .diversity q ∧ traceWeight .diversity q ≤ traceWeight .diversity p ∧
        traceWeight .diversity p ≤ 65535

/-- The first of the four tests that holds gives the cause; DEAD, CLIP and BURST count as edits and INACTIVE does not;
a job's channels are its edited, its inactive and its correlated ones; on a ring as R18 has it every weight and value is
in R110's range. Where the ring holds the window's rows, the record of channel c is that of the pilot slot's samples and
the channel's words in the rows T0..T0+S+L-2, and the saturation count is the sum over the channels (R103, R104, R108,
R110). -/
def Obligations.TraceCausesAndCounts : Prop :=
  (∀ (j : Job) (v : ChannelView) (words : List RingWord),
    let clips := 1 ≤ j.clipLimit ∧ j.clipLimit ≤ (words.filter RingWord.clipped).length
    let bursts := j.weight = .diversity ∧ 0 < j.burst ∧
      j.burst < windowPower words (j.pilotLength + j.listen - 1)
    (traceCause j v words = some .inactive ↔ v.active = false) ∧
      (traceCause j v words = some .dead ↔ v.active = true ∧ v.monitor = .dead) ∧
      (traceCause j v words = some .clip ↔ v.active = true ∧ v.monitor = .normal ∧ clips) ∧
      (traceCause j v words = some .burst ↔ v.active = true ∧ v.monitor = .normal ∧ ¬ clips ∧ bursts)) ∧
    (∀ (j : Job) (s : State), RingInv s →
      (∀ i, i < j.pilotLength + j.listen - 1 → ∃ r ∈ s.ring, r.ssn = j.t0 + BitVec.ofNat 32 i) →
      let pilot := (s.pilots[j.pilot]).phase.samples.map BitVec.toInt
      let channel : Nat → ChannelView → TraceRecord × Nat := fun c v => correlateChannel j pilot v
        ((List.range (j.pilotLength + j.listen - 1)).map fun i => ringWord s (j.t0 + BitVec.ofNat 32 i) c)
      (correlate j s).records = j.snapshot.mapIdx (fun c v => (channel c v).1) ∧
        (correlate j s).counts.saturated = (j.snapshot.mapIdx fun c v => (channel c v).2).sum) ∧
    ∀ (j : Job) (s : State),
      (correlate j s).records.length = j.snapshot.length ∧ (RingInv s → ∀ r ∈ (correlate j s).records, r.ok) ∧
        (correlate j s).counts.inactive =
          ((correlate j s).records.filter fun r => decide (r.cause = some .inactive)).length ∧
        (correlate j s).counts.edited + (correlate j s).counts.inactive +
          ((correlate j s).records.filter fun r => decide (r.cause = none)).length = j.snapshot.length

/-- Two merges into one slot give the same stack in either order: always but for first and last T0, and in every field
where the T0s concerned lie in one half-range (R112, R114). -/
def Obligations.MergesCommute : Prop :=
  ∀ (j1 j2 : Job) (sc1 sc2 : Scratch) (st : Stack),
    let a := mergeStack j1 sc1 (mergeStack j2 sc2 st)
    let b := mergeStack j2 sc2 (mergeStack j1 sc1 st)
    { a with firstT0 := none, lastT0 := none } = { b with firstT0 := none, lastT0 := none } ∧
      ((∃ base : Ssn, (j1.t0 - base).toNat < 2147483648 ∧ (j2.t0 - base).toNat < 2147483648 ∧
        (∀ o, st.firstT0 = some o → (o - base).toNat < 2147483648) ∧
        (∀ o, st.lastT0 = some o → (o - base).toNat < 2147483648)) → a = b)

/-- The bounds of R128 survive every merge of a scratch as R110 has it: accepted plus edited at most the fold, the
weight sum between the accepted count and 65,535 times it, and |A[k]| at most 65,535 × 2^31 times it. And every step keeps,
for every occupied slot, fold plus pending at most 32, qc_kept at most the fold, first and last T0 present exactly while the
fold is 1 or more, one record of L accumulators for each of the stream's channels, and the bounds of R128 (R122, R123, R127,
R128). The premises are the invariants of the ring, the pending counts and the lanes. -/
def Obligations.StackBoundsSurviveMerges : Prop :=
  (∀ (j : Job) (sc : Scratch) (st : Stack), (∀ r ∈ sc.records, r.ok) → (∀ c ∈ st.records, c.ok st.fold) →
    (mergeStack j sc st).fold = st.fold + 1 ∧ (∀ c ∈ (mergeStack j sc st).records, c.ok (st.fold + 1)) ∧
      (mergeStack j sc st).records.length = st.records.length) ∧
  ∀ s t : State, RingInv s → ClaimInv s → LaneInv s → BoundsInv s → step s = .next t → BoundsInv t

/-- In MEAN mode a channel with weight sum w of 1 or more gives A / w, in SUM mode A / 2^OS, each rounded half away from
zero; a MEAN of a weighted sum of 32-bit values fits 32 bits, and SUM with OS = 0 is A itself (R152, R153). -/
def Obligations.OutputSamplesAreMeansOrSums : Prop :=
  ∀ (shift w : Nat) (a : Int), 1 ≤ w →
    (let m := normalisedSample .mean shift w a
     2 * (m.natAbs * w) ≤ 2 * a.natAbs + w ∧ 2 * a.natAbs < 2 * (m.natAbs * w) + w ∧ (0 ≤ a → 0 ≤ m) ∧ (a ≤ 0 → m ≤ 0) ∧
       (-2147483648 * w ≤ a → a ≤ 2147483647 * w → -2147483648 ≤ m ∧ m ≤ 2147483647)) ∧
    (let m := normalisedSample .sum shift w a
     2 * (m.natAbs * 2 ^ shift) ≤ 2 * a.natAbs + 2 ^ shift ∧ 2 * a.natAbs < 2 * (m.natAbs * 2 ^ shift) + 2 ^ shift ∧
       (0 ≤ a → 0 ≤ m) ∧ (a ≤ 0 → m ≤ 0)) ∧
    normalisedSample .sum 0 w a = a

/-- A TRACE has one sample per accumulator, each in the range of the read's width; its output saturation count is the
number of normalised values outside that range, OUT_SAT stands exactly at a count of 1 or more; EMPTY stands exactly at
accepted count 0, and an EMPTY trace has zeros only, count 0 and no OUT_SAT (R154, R155). -/
def Obligations.TraceFlagsFollowCounts : Prop :=
  ∀ (mode : ReadMode) (shift : Nat) (width : SampleWidth) (channel : Nat) (label : Word32) (r : ChannelStack),
    let t := traceMessage mode shift width channel label r
    let top : Int := 2 ^ (width.bits - 1)
    t.samples.length = r.acc.length ∧ (∀ v ∈ t.samples, -top ≤ v ∧ v ≤ top - 1) ∧
      (t.outSat = true ↔ 1 ≤ t.saturated) ∧ (t.isEmpty = true ↔ r.accepted = 0) ∧
      (r.accepted = 0 → (∀ v ∈ t.samples, v = 0) ∧ t.saturated = 0 ∧ t.outSat = false) ∧
      (1 ≤ r.accepted →
        t.samples = r.acc.map (fun a => max (-top) (min (top - 1) (normalisedSample mode shift r.weightSum a))) ∧
          t.saturated = (r.acc.filter fun a =>
            decide (normalisedSample mode shift r.weightSum a < -top ∨
              top - 1 < normalisedSample mode shift r.weightSum a)).length)

/-! ### Channel Monitor, pilots, admission: functions of one entry -/

/-- A row handed to the Channel Monitor adds |x| to the interval sum of every active entry it has a word for, with the
latches of R35 where it is no gap row, and completes the interval of the entries below C at its 1,024th row (R29, R30,
R35). At an interval completion of an active entry without the partial mark, a level below the dead threshold raises the
run, to DEAD with DEAD_SEEN and CHANNEL_CHANGE at the fourth; one at or above it returns the entry to NORMAL with run 0;
one above the noise threshold latches NOISY_SEEN, with CHANNEL_CHANGE where it was not latched (R31 to R34). An inactive
entry is left alone; one with the partial mark loses the mark and its sum and is not judged (R31, R36). A row raises
CHANNEL_CHANGE exactly where it completes an interval at which an entry below C raises it; RowBlocksExtendTheRing ties
that to the command. -/
def Obligations.ChannelsAreMonitored : Prop :=
  (∀ (m : Monitor) (channels : Nat) (ssn : Ssn) (gap : Bool) (words : List RingWord), m.position ≤ 1023 →
    (m.origin = none → m.position = 0) →
    let d := m.takeRow channels ssn gap words
    let taken : Channel → RingWord → Channel := fun c w =>
      if c.active then
        { c with
          intervalSum := c.intervalSum + w.x.natAbs
          latched := if gap then c.latched else
            { c.latched with
              clipSeen := c.latched.clipSeen || w.clipped, dropoutSeen := c.latched.dropoutSeen || w.dropout } }
      else c
    let entry : Fin Config.channels → Channel := fun i => match words[i.val]? with
      | none => m.table[i]
      | some w => taken m.table[i] w
    d.origin = some (m.origin.getD ssn) ∧ d.position = (m.position + 1) % 1024 ∧
      (∀ i : Fin Config.channels,
        d.table[i] = if m.position = 1023 ∧ i.val < channels then completeInterval (entry i) else entry i) ∧
      (m.rowRaises channels gap words = true ↔
        m.position = 1023 ∧ ∃ i : Fin Config.channels, i.val < channels ∧ raisesChange (entry i) = true)) ∧
  (∀ c : Channel, c.active = false → completeInterval c = c ∧ raisesChange c = false) ∧
  (∀ c : Channel, c.active = true → c.partialMark = true →
    completeInterval c = { c with partialMark := false, intervalSum := 0 } ∧ raisesChange c = false) ∧
  ∀ c : Channel, c.active = true → c.partialMark = false → c.ok →
    let level := c.intervalSum / 16777216
    let d := completeInterval c
    let enters := level < c.deadThreshold ∧ c.monitor = .normal ∧ c.lowRun = 3
    d.lastLevel = level ∧ d.intervalSum = 0 ∧ d.partialMark = false ∧
      (level < c.deadThreshold → d.lowRun = min 4 (c.lowRun + 1) ∧
        d.monitor = (if c.lowRun = 3 then .dead else c.monitor)) ∧
      (c.deadThreshold ≤ level → d.lowRun = 0 ∧ d.monitor = .normal) ∧
      (d.latched.deadSeen = true ↔ c.latched.deadSeen = true ∨ enters) ∧
      (d.latched.noisySeen = true ↔ c.latched.noisySeen = true ∨ c.noiseThreshold < level) ∧
      d.latched.clipSeen = c.latched.clipSeen ∧ d.latched.dropoutSeen = c.latched.dropoutSeen ∧
      (raisesChange c = true ↔ enters ∨ (c.noiseThreshold < level ∧ c.latched.noisySeen = false)) ∧
      d.active = true ∧ d.label = c.label ∧ d.deadThreshold = c.deadThreshold ∧ d.noiseThreshold = c.noiseThreshold

/-- On a ring as R18 has it, a T0 passes the bounds check exactly from the oldest row up to 32,768 rows after the newest;
on an empty ring every T0 passes. A T0 passes the slip check exactly where it is after the fleet's last accepted T0 by at
least max(1, minimum slip) rows; without one every T0 passes (R66, R67). -/
def Obligations.T0BoundsAndSlip : Prop :=
  (∀ (s : State) (t0 : Ssn), RingInv s →
    match s.oldest with
    | none => t0InBounds s t0 = true
    | some o => t0InBounds s t0 = true ↔ (t0 - o).toNat + 1 ≤ s.ring.length + 32768) ∧
    ∀ (r : Fleet) (t0 : Ssn), r.params.minSlip ≤ 32767 →
      match r.lastT0 with
      | none => slipPasses r t0 = true
      | some last => slipPasses r t0 = true ↔
          max 1 r.params.minSlip ≤ (t0 - last).toNat ∧ (t0 - last).toNat ≤ 2147483647

/-- Among the READY entries the Dispatcher takes the one with the earliest data-complete row, then the lowest fleet, then
the one nearer the oldest end of the table; among the IDLE lanes the lowest-numbered (R100). The premise puts the
data-complete rows of the READY entries in one half-range, where the modular order is an order. -/
def Obligations.GrantOrder : Prop :=
  (∀ (sweeps : List SweepEntry) (base : Ssn),
    (∀ x ∈ sweeps, x.stage = .ready → (x.dataRow - base).toNat < 2147483648) →
    ((∃ x ∈ sweeps, x.stage = .ready) → chooseSweep sweeps ≠ none) ∧
      ∀ e, chooseSweep sweeps = some e → e.stage = .ready ∧ ∃ j : Nat, sweeps[j]? = some e ∧
        ∀ (i : Nat) (x : SweepEntry), sweeps[i]? = some x → x.stage = .ready →
          (e.dataRow - base).toNat < (x.dataRow - base).toNat ∨
            e.dataRow = x.dataRow ∧ (e.fleet < x.fleet ∨ e.fleet = x.fleet ∧ j ≤ i)) ∧
    ∀ s : State,
      ((∃ l : Fin Config.lanes, s.lanes[l] = .idle) → chooseLane s ≠ none) ∧
        ∀ l : Fin Config.lanes, chooseLane s = some l →
          s.lanes[l] = .idle ∧ ∀ k : Fin Config.lanes, k < l → s.lanes[k] ≠ .idle


/-! ### Alerts -/

/-- An event's raising set becomes pending; one ALERT with the pending set after it is produced exactly where a cause of
the set was neither pending nor masked, held apart while a read is in hand and discarded while the link is down.
ALERT MASK replaces the mask set, answers with both sets, and then produces one ALERT exactly where a pending cause was
masked and is not any more. ALERT ACK removes the carried causes and answers with both sets (R179, R180, R181, R182). -/
def Obligations.AlertDecisions : Prop :=
  (∀ (s : State) (c : CauseSet),
    let alert := Message.alert s.record.sequence (s.alerts.pending ||| c)
    let sends := ∃ i, i < 8 ∧ c.getLsbD i = true ∧ s.alerts.pending.getLsbD i = false ∧ s.alerts.mask.getLsbD i = false
    let s1 := { s with alerts := { s.alerts with pending := s.alerts.pending ||| c } }
    (¬ sends → s.raise c = s1) ∧
      (sends → s.record.up = false →
        s.raise c = { s1 with record := { s.record with sequence := s.record.sequence + 1 } }) ∧
      (sends → s.record.up = true → s.reading = none →
        s.raise c = { s1 with
          record := { s.record with sequence := s.record.sequence + 1, output := s.record.output ++ [alert] } }) ∧
      (sends → s.record.up = true → s.reading ≠ none →
        s.raise c = { s1 with
          record := { s.record with sequence := s.record.sequence + 1 }, heldAlerts := s.heldAlerts ++ [alert] })) ∧
    (∀ (s : State) (tag : Byte) (rest : List Frame) (mask : CauseSet), RecordRequest s 42 tag [mask] rest →
      let s1 := { s with alerts := { s.alerts with mask := mask } }
      let s2 := s1.answerRecord rest (.reply tag 42 .done [mask, s.alerts.pending])
      let sends := ∃ i, i < 8 ∧ s.alerts.pending.getLsbD i = true ∧ s.alerts.mask.getLsbD i = true ∧
        mask.getLsbD i = false
      (¬ sends → exec .alertMask s = .next s2) ∧
        (sends → exec .alertMask s = .next { s2 with
          record := { s2.record with
            sequence := s.record.sequence + 1
            output := s2.record.output ++ [.alert s.record.sequence s.alerts.pending] } })) ∧
    ∀ (s : State) (tag : Byte) (rest : List Frame) (causes : CauseSet), RecordRequest s 43 tag [causes] rest →
      exec .alertAck s =
        .next ({ s with alerts := { s.alerts with pending := s.alerts.pending &&& ~~~causes } }.answerRecord rest
          (.reply tag 43 .done [s.alerts.pending &&& ~~~causes, s.alerts.mask]))

/-! ### Links -/

/-- At link up a link starts from the buffer, queue, counters and sequence it has and sends nothing; at link down its
buffer and queue are emptied, and on the Record Link a read in hand ends and held ALERTs are lost, while the rest of the
part stays; a link that is down receives nothing, and its messages are discarded at production. A link sends its oldest
message; the Spread Link sends none (R169, R173, R174, R175). The lists of sent frames (log entry 16), the same effects on
a link that is up or down already (log entry 22), and a MESSAGE_SEND of the Spread Link that leaves the state (log entry
1) are the model's choices. -/
def Obligations.LinkEventsAndSending : Prop :=
  ∀ s : State,
    exec (.linkUp .spread) s = .next { s with spread := { s.spread with up := true } } ∧
      exec (.linkUp .source) s = .next { s with source := { s.source with up := true } } ∧
      exec (.linkUp .record) s = .next { s with record := { s.record with up := true } } ∧
      exec (.linkDown .spread) s = .next { s with spread := { s.spread with up := false, input := [] } } ∧
      exec (.linkDown .source) s = .next { s with source := { s.source with up := false, input := [], output := [] } } ∧
      exec (.linkDown .record) s = .next { s with
        record := { s.record with up := false, input := [], output := [] }, reading := none, heldAlerts := [] } ∧
      (∀ (link : LinkId) (bytes : List Byte), s.linkIsUp link = false →
        exec (.frameReceipt link bytes) s = .next s) ∧
      (∀ (l : PartnerLink) (m : Message), l.up = false → l.push m = l) ∧
      (∀ (m : Message) (rest : List Message), s.source.up = true → s.source.output = m :: rest →
        exec (.messageSend .source) s = .next { s with
          source := { s.source with output := rest, sent := s.source.sent ++ [m.bytes] } }) ∧
      (∀ (m : Message) (rest : List Message), s.record.up = true → s.record.output = m :: rest →
        exec (.messageSend .record) s = .next { s with
          record := { s.record with output := rest, sent := s.record.sent ++ [m.bytes] } }) ∧
      exec (.messageSend .spread) s = .next s

/-- On a link that is up, a frame that passes the check joins the end of the buffer while a place is free; a frame that
fails it, on the Spread Link also by its kind or its STREAM START length, is counted as a CRC-discard, and one that finds
the buffer full as an overflow, each raising LINK_ERROR; a counter stops at 4,294,967,295 (R4, R162, R164, R165,
R175). -/
def Obligations.FramesAreCheckedAndBuffered : Prop :=
  (∀ (s : State) (bytes : List Byte), s.source.up = true →
    (readFrame bytes = none → exec (.frameReceipt .source bytes) s = .next
      (State.raise { s with source := { s.source with crcDiscards := satAdd32 s.source.crcDiscards 1 } } 0x10#8)) ∧
    ∀ f, readFrame bytes = some f →
      (s.source.input.length < 4 → exec (.frameReceipt .source bytes) s = .next
        { s with source := { s.source with input := s.source.input ++ [f] } }) ∧
      (4 ≤ s.source.input.length → exec (.frameReceipt .source bytes) s = .next
        (State.raise { s with source := { s.source with overflows := satAdd32 s.source.overflows 1 } } 0x10#8))) ∧
  (∀ (s : State) (bytes : List Byte), s.record.up = true →
    (readFrame bytes = none → exec (.frameReceipt .record bytes) s = .next
      (State.raise { s with record := { s.record with crcDiscards := satAdd32 s.record.crcDiscards 1 } } 0x10#8)) ∧
    ∀ f, readFrame bytes = some f →
      (s.record.input.length < 4 → exec (.frameReceipt .record bytes) s = .next
        { s with record := { s.record with input := s.record.input ++ [f] } }) ∧
      (4 ≤ s.record.input.length → exec (.frameReceipt .record bytes) s = .next
        (State.raise { s with record := { s.record with overflows := satAdd32 s.record.overflows 1 } } 0x10#8))) ∧
  (∀ (s : State) (bytes : List Byte), s.spread.up = true →
    ((∀ f, readFrame bytes = some f → f.kind ≠ 1 ∧ (f.kind = 2 → f.payload.length ≠ 4)) →
      exec (.frameReceipt .spread bytes) s = .next
        (State.raise { s with spread := { s.spread with crcDiscards := satAdd32 s.spread.crcDiscards 1 } } 0x10#8)) ∧
    ∀ f, readFrame bytes = some f → f.kind = 1 ∨ f.kind = 2 ∧ f.payload.length = 4 →
      (s.spread.input.length < 16 → exec (.frameReceipt .spread bytes) s = .next
        { s with spread := { s.spread with input := s.spread.input ++ [f] } }) ∧
      (16 ≤ s.spread.input.length → exec (.frameReceipt .spread bytes) s = .next
        (State.raise { s with spread := { s.spread with overflows := satAdd32 s.spread.overflows 1 } } 0x10#8))) ∧
  ∀ c : Word32, (satAdd32 c 1).toNat = min (c.toNat + 1) 4294967295

/-- A request whose kind is not one of its link's is taken and refused UNKNOWN_KIND, one whose payload does not have its
kind's length BAD_LENGTH, each without result fields and without any other effect (R167). -/
def Obligations.LinkRefusals : Prop :=
  (∀ (s : State) (kind tag : Byte) (payload : List Byte) (rest : List Frame),
    (SourceRequest s kind tag payload rest → kind.toNat < 16 ∨ 24 < kind.toNat →
      exec (.unknownKind .source) s = .next (s.answerSource rest (.reply tag kind .unknownKind []))) ∧
    (RecordRequest s kind tag payload rest → kind.toNat < 32 ∨ 46 < kind.toNat →
      exec (.unknownKind .record) s = .next (s.answerRecord rest (.reply tag kind .unknownKind [])))) ∧
  (∀ (s : State) (tag : Byte) (payload : List Byte) (rest : List Frame) (c : Instr) (kind : Byte) (length : Nat),
    (c, kind, length) ∈ [(Instr.pilotOpen, 16#8, 4), (.pilotClose, 18, 1), (.pilotQuery, 19, 1), (.pilotPurge, 20, 2),
      (.sweepAnnounce, 21, 10), (.sweepCancel, 23, 4), (.vpEnd, 24, 5), (.pilotPart, 17, 5 + 2 * halfAt payload 3),
      (.sweepReport, 22, 5 + 10 * byteAt payload 4)] →
    SourceRequest s kind tag payload rest → payload.length ≠ length →
      exec c s = .next (s.answerSource rest (.reply tag kind .badLength []))) ∧
  (∀ (s : State) (tag : Byte) (payload : List Byte) (rest : List Frame) (c : Instr) (kind : Byte) (length : Nat),
    (c, kind, length) ∈ [(Instr.setupStream, 32#8, 3), (.channelRead, 34, 4), (.fleetSet, 35, 29), (.fleetRead, 36, 1),
      (.stackList, 37, 0), (.stackStatus, 38, 6), (.stackSeal, 39, 4), (.recordRead, 40, 7), (.stackRelease, 41, 1),
      (.alertMask, 42, 1), (.alertAck, 43, 1), (.deviceStatus, 44, 0), (.capabilityRead, 45, 0),
      (.deviceClear, 46, 0)] →
    RecordRequest s kind tag payload rest → payload.length ≠ length →
      exec c s = .next (s.answerRecord rest (.reply tag kind .badLength []))) ∧
  ∀ (s : State) (tag : Byte) (payload : List Byte) (rest : List Frame), RecordRequest s 33 tag payload rest →
    payload.length < 4 → exec .channelSet s = .next (s.answerRecord rest (.reply tag 33 .badLength []))

/-! ### The stream -/

/-- A ROW BLOCK that passes R6 and R7 with its first SSN d rows after E, d in 0..4,096, appends d gap rows and then its
own rows, normalised, the newest 65,536 rows staying in the ring; E ends one past its last row; the gap-row and dropout
counters rise; STREAM_FAULT becomes pending exactly through a gap. Every row is handed to the Channel Monitor in order,
and CHANNEL_CHANGE becomes pending exactly where one of them raises it. In origin state NONE the block sets the origin and
is appended (R9, R10, R11, R19, R20, R22). What the rows' reports do to the sweeps, OverrunDropsSweeps says. -/
def Obligations.RowBlocksExtendTheRing : Prop :=
  ∀ (s : State) (tag : Byte) (p : List Byte) (rest : List Frame) (first : Ssn) (n : Nat),
    SpreadFrame s 1 tag p rest → GoodBlock s p first n → s.ring.length ≤ 65536 →
    let dropouts := satAdd32 s.ingest.dropouts (invalidWords (readRows n s.ingest.channels p))
    (∀ (o : StreamOrigin) (d : Nat), s.ingest.origin = some o → (first - o.expected).toNat = d → d ≤ 4096 →
      let gap := List.replicate d
        (List.replicate s.ingest.channels ({ x := 0, clipped := false, dropout := true } : RingWord))
      let filled := takeRows s.ingest.channels true s.monitor o.expected gap
      let taken := takeRows s.ingest.channels false filled.1 first (blockRows p)
      ∃ t, exec .rowBlock s = .next t ∧
        t.ring = newestRows (s.ring ++ numberRows o.expected (gap ++ blockRows p)) ∧
        t.ingest = { s.ingest with
          origin := some { o with expected := first + BitVec.ofNat 32 n }
          gapRows := satAdd32 s.ingest.gapRows d, dropouts := dropouts } ∧
        t.spread = { s.spread with input := rest } ∧ SameButForRows s t ∧ t.fleets = s.fleets ∧
        t.alerts.pending.getLsbD 3 = (s.alerts.pending.getLsbD 3 || decide (1 ≤ d)) ∧
        t.monitor = taken.1 ∧ t.alerts.pending.getLsbD 2 = (s.alerts.pending.getLsbD 2 || filled.2 || taken.2)) ∧
    (s.ingest.origin = none →
      let taken := takeRows s.ingest.channels false s.monitor first (blockRows p)
      ∃ t, exec .rowBlock s = .next t ∧ t.ring = newestRows (s.ring ++ numberRows first (blockRows p)) ∧
        t.ingest = { s.ingest with
          origin := some { origin := first, expected := first + BitVec.ofNat 32 n }, dropouts := dropouts } ∧
        t.spread = { s.spread with input := rest } ∧ SameButForRows s t ∧ t.fleets = s.fleets ∧
        t.alerts.pending.getLsbD 3 = s.alerts.pending.getLsbD 3 ∧
        t.monitor = taken.1 ∧ t.alerts.pending.getLsbD 2 = (s.alerts.pending.getLsbD 2 || taken.2))

/-- A malformed ROW BLOCK, and one whose channel count is not C, is discarded with one count and STREAM_FAULT and no
other effect. A block before E has its rows before E counted as stale, with STREAM_FAULT; its rows from E on, if any,
are appended (R6, R7, R12, R22). -/
def Obligations.StaleAndBadBlocks : Prop :=
  (∀ (s : State) (tag : Byte) (p : List Byte) (rest : List Frame), SpreadFrame s 1 tag p rest →
    (p.length < 7 ∨ ¬ (1 ≤ byteAt p 4 ∧ byteAt p 4 ≤ 16) ∨ ¬ (1 ≤ halfAt p 5 ∧ halfAt p 5 ≤ 1024) ∨
      8192 < byteAt p 4 * halfAt p 5 ∨ p.length ≠ 7 + 4 * (byteAt p 4 * halfAt p 5) ∨
      halfAt p 5 ≠ s.ingest.channels) →
    exec .rowBlock s = .next (State.raise
      { s with
        spread := { s.spread with input := rest }
        ingest := { s.ingest with discarded := satAdd32 s.ingest.discarded 1 } } 0x08#8)) ∧
  ∀ (s : State) (tag : Byte) (p : List Byte) (rest : List Frame) (first : Ssn) (n behind : Nat) (o : StreamOrigin),
    SpreadFrame s 1 tag p rest → GoodBlock s p first n → s.ring.length ≤ 65536 → s.ingest.origin = some o →
    (o.expected - first).toNat = behind → 1 ≤ behind → behind ≤ 2147483647 →
    let taken := takeRows s.ingest.channels false s.monitor o.expected ((blockRows p).drop behind)
    ∃ t, exec .rowBlock s = .next t ∧
      t.ring = newestRows (s.ring ++ numberRows o.expected ((blockRows p).drop behind)) ∧
      t.ingest = { s.ingest with
        origin := some { o with expected := o.expected + BitVec.ofNat 32 (n - behind) }
        staleRows := satAdd32 s.ingest.staleRows (min behind n)
        dropouts := satAdd32 s.ingest.dropouts
          (invalidWords ((readRows n s.ingest.channels p).drop behind)) } ∧
      t.spread = { s.spread with input := rest } ∧ SameButForRows s t ∧ t.fleets = s.fleets ∧
      t.monitor = taken.1 ∧ t.alerts.pending.getLsbD 2 = (s.alerts.pending.getLsbD 2 || taken.2) ∧
      t.alerts.pending.getLsbD 3 = true

/-- A STREAM START with origin O empties the ring and sets origin and E to O in every origin state; every sweep outside
MERGING is resolved DROPPED_RESTART in table order, its job aborted, its pin released and its stack slot counted, which a
DRAINING slot may leave for SEALED; every fleet's last accepted T0 becomes absent; the monitor restarts its intervals at
O; STREAM_FAULT is raised exactly for a non-empty ring and SWEEP_DROPPED exactly where a sweep is dropped. A ROW BLOCK far
from E restarts the stream with its first SSN in the same way, with STREAM_FAULT always, and is then appended and handed
to the restarted monitor (R13, R14, R15, R37, R52, R76, R77, R82, R117, R134, R135). -/
def Obligations.RestartsDropSweeps : Prop :=
  (∀ (s : State) (tag : Byte) (origin : Ssn) (rest : List Frame),
    SpreadFrame s 2 tag (encWord origin) rest → DistinctNumbers s →
    let dropped := s.sweeps.filter SweepEntry.isDroppable
    ∃ t, exec .streamStart s = .next t ∧ t.ring = [] ∧
      t.ingest = { s.ingest with origin := some { origin := origin, expected := origin } } ∧
      t.monitor.origin = some origin ∧ t.monitor.position = 0 ∧
      (∀ i : Fin Config.channels, t.monitor.table[i] =
        { s.monitor.table[i] with intervalSum := 0, partialMark := false, lowRun := 0, monitor := .normal }) ∧
      t.sweeps = s.sweeps.filter (fun e => !e.isDroppable) ∧
      (∀ fl : Fin Config.fleets, t.fleets[fl] = { s.fleets[fl] with lastT0 := none }) ∧
      (∀ l : Fin Config.lanes, ((∃ e ∈ s.sweeps, e.stage = .correlating l) → t.lanes[l] = .idle) ∧
        ((∀ e ∈ s.sweeps, e.stage ≠ .correlating l) → t.lanes[l] = s.lanes[l])) ∧
      ResolvedInOneEvent s t .droppedRestart dropped ∧
      t.alerts.pending.getLsbD 3 = (s.alerts.pending.getLsbD 3 || decide (s.ring ≠ [])) ∧
      t.alerts.pending.getLsbD 1 = (s.alerts.pending.getLsbD 1 || decide (dropped ≠ [])) ∧
      t.spread = { s.spread with input := rest } ∧ SameButForRows s t) ∧
  ∀ (s : State) (tag : Byte) (p : List Byte) (rest : List Frame) (first : Ssn) (n : Nat) (o : StreamOrigin),
    SpreadFrame s 1 tag p rest → GoodBlock s p first n → s.ingest.origin = some o → DistinctNumbers s →
    4097 ≤ (first - o.expected).toNat → (first - o.expected).toNat ≤ 2147483648 →
    let dropped := s.sweeps.filter SweepEntry.isDroppable
    ∃ (t : State) (restarted : Monitor), exec .rowBlock s = .next t ∧ t.ring = numberRows first (blockRows p) ∧
      t.ingest = { s.ingest with
        origin := some { origin := first, expected := first + BitVec.ofNat 32 n }
        dropouts := satAdd32 s.ingest.dropouts (invalidWords (readRows n s.ingest.channels p)) } ∧
      restarted.origin = some first ∧ restarted.position = 0 ∧
      (∀ i : Fin Config.channels, restarted.table[i] =
        { s.monitor.table[i] with intervalSum := 0, partialMark := false, lowRun := 0, monitor := .normal }) ∧
      t.monitor = (takeRows s.ingest.channels false restarted first (blockRows p)).1 ∧
      t.sweeps = ((s.sweeps.filter fun e => !e.isDroppable).map fun e =>
        if e.dataComplete = false ∧ (e.dataRow - first).toNat < n then
          { e with
            dataComplete := true
            timer := if e.qc = .pending then
              some { length := e.copy.reportTimeout, deadline := s.clock + e.copy.reportTimeout } else e.timer }
        else e) ∧
      (∀ fl : Fin Config.fleets, t.fleets[fl] = { s.fleets[fl] with lastT0 := none }) ∧
      (∀ l : Fin Config.lanes, ((∃ e ∈ s.sweeps, e.stage = .correlating l) → t.lanes[l] = .idle) ∧
        ((∀ e ∈ s.sweeps, e.stage ≠ .correlating l) → t.lanes[l] = s.lanes[l])) ∧
      ResolvedInOneEvent s t .droppedRestart dropped ∧ t.alerts.pending.getLsbD 3 = true ∧
      t.alerts.pending.getLsbD 1 = (s.alerts.pending.getLsbD 1 || decide (dropped ≠ [])) ∧
      t.spread = { s.spread with input := rest } ∧ SameButForRows s t

/-- A row is appended by a block of one row at E, or in origin state NONE. On a full ring it displaces the oldest row,
whose departure resolves DROPPED_OVERRUN every sweep outside MERGING with a T0 at or before it; on an empty ring it is the
first arrival, which resolves DROPPED_RESTART every WAITING sweep whose T0 is not at or after it; on any other ring it
resolves none. The resolutions are in table order, with their pins, jobs, stack slots and results, and SWEEP_DROPPED is
raised exactly where there is one. The arrival then reaches the sweeps that stay: one whose data-complete row it is
becomes data complete, its report timer starts while QC is PENDING, and one that WAITS with an outcome that lets it
proceed is READY (R19, R52, R72, R73, R76, R77, R80, R81, R92, R117, R134, R135). A block of any number of rows, the gap
rows before them included, or its rows from E on where it starts before E, does the same row by row: the sweeps of every row
that departs leave, the first arrival counts for an empty ring, and every row that arrives reaches its sweeps (R10, R11, R12,
R20). The premise on rejected entries is R72's: none stands in the table. -/
def Obligations.OverrunDropsSweeps : Prop :=
  (∀ (s : State) (tag : Byte) (p : List Byte) (rest : List Frame) (first : Ssn),
    SpreadFrame s 1 tag p rest → GoodBlock s p first 1 →
    s.ingest.origin = none ∨ (∃ o, s.ingest.origin = some o ∧ o.expected = first) →
    s.ring.length ≤ 65536 → DistinctNumbers s → (∀ e ∈ s.sweeps, e.isRejected = false) →
    let drops : SweepEntry → Bool := fun e =>
      match s.ring with
      | [] => decide (e.stage = .waiting) && !ssnAtOrBefore first e.t0
      | row :: _ => decide (s.ring.length = 65536) && e.isDroppable && ssnAtOrBefore e.t0 row.ssn
    let outcome : SweepOutcome := if s.ring = [] then .droppedRestart else .droppedOverrun
    let arrived : SweepEntry → SweepEntry := fun e =>
      if e.dataRow = first ∧ e.dataComplete = false then
        { e with
          dataComplete := true
          timer := if e.qc = .pending then
            some { length := e.copy.reportTimeout, deadline := s.clock + e.copy.reportTimeout } else e.timer
          stage := if e.stage = .waiting ∧ (e.qc = .pass ∨ (e.qc = .fail ∧ e.copy.policy = .keep) ∨
              (e.qc = .noReport ∧ (e.copy.noReport = .pass ∨ e.copy.policy = .keep))) then .ready else e.stage }
      else e
    ∃ t, exec .rowBlock s = .next t ∧
      t.ring = (if s.ring.length = 65536 then s.ring.tail else s.ring) ++ numberRows first (blockRows p) ∧
      t.sweeps = (s.sweeps.filter fun e => !drops e).map arrived ∧
      ResolvedInOneEvent s t outcome (s.sweeps.filter drops) ∧
      (∀ l : Fin Config.lanes,
        ((∃ e ∈ s.sweeps, drops e = true ∧ e.stage = .correlating l) → t.lanes[l] = .idle) ∧
        ((∀ e ∈ s.sweeps, drops e = true → e.stage ≠ .correlating l) → t.lanes[l] = s.lanes[l])) ∧
      t.alerts.pending.getLsbD 1 = (s.alerts.pending.getLsbD 1 || s.sweeps.any drops) ∧ SameButForRows s t ∧
      t.fleets = s.fleets) ∧
  ∀ (s : State) (tag : Byte) (p : List Byte) (rest : List Frame) (first start : Ssn) (n rows : Nat),
    SpreadFrame s 1 tag p rest → GoodBlock s p first n → RowsAppended s first n start rows →
    s.ring.length ≤ 65536 → DistinctNumbers s → (∀ e ∈ s.sweeps, e.isRejected = false) →
    let drops : SweepEntry → Bool := fun e =>
      match s.ring with
      | [] => decide (1 ≤ rows) && decide (e.stage = .waiting) && !ssnAtOrBefore start e.t0
      | _ => e.isDroppable && (s.ring.take (s.ring.length + rows - 65536)).any fun row => ssnAtOrBefore e.t0 row.ssn
    let arrived : SweepEntry → SweepEntry := fun e =>
      if (e.dataRow - start).toNat < rows ∧ e.dataComplete = false then
        { e with
          dataComplete := true
          timer := if e.qc = .pending then
            some { length := e.copy.reportTimeout, deadline := s.clock + e.copy.reportTimeout } else e.timer
          stage := if e.stage = .waiting ∧ (e.qc = .pass ∨ (e.qc = .fail ∧ e.copy.policy = .keep) ∨
              (e.qc = .noReport ∧ (e.copy.noReport = .pass ∨ e.copy.policy = .keep))) then .ready else e.stage }
      else e
    ∃ t, exec .rowBlock s = .next t ∧ t.sweeps = (s.sweeps.filter fun e => !drops e).map arrived ∧
      (s.ring.length + rows ≤ 65536 → ResolvedInOneEvent s t .droppedRestart (s.sweeps.filter drops)) ∧
      t.alerts.pending.getLsbD 1 = (s.alerts.pending.getLsbD 1 || s.sweeps.any drops) ∧ SameButForRows s t ∧
      t.fleets = s.fleets

/-- An accepted SETUP STREAM sets C and the interval code, empties the ring, makes the origin state NONE, restarts the
monitor without an origin and clears every fleet's last accepted T0; a value out of range is refused BAD_VALUE and a
sweep entry or a stack slot that is not FREE BUSY, with no effect; every reply carries C and the code as they stand
(R2, R37). -/
def Obligations.SetupStreamRules : Prop :=
  ∀ (s : State) (tag : Byte) (channels interval : Nat) (rest : List Frame),
    RecordRequest s 32 tag (enc16 channels ++ enc8 interval) rest → channels < 65536 → interval < 256 →
    let old := enc16 s.ingest.channels ++ enc8 s.ingest.interval
    let quiet := s.sweeps = [] ∧ ∀ k : Fin Config.stackSlots, s.slots[k] = none
    (1024 < channels ∨ 3 < interval → exec .setupStream s = .next (s.answerRecord rest (.reply tag 32 .badValue old))) ∧
      (channels ≤ 1024 → interval ≤ 3 → ¬ quiet →
        exec .setupStream s = .next (s.answerRecord rest (.reply tag 32 .busy old))) ∧
      ∀ code : Fin 4, channels ≤ 1024 → code.val = interval → quiet →
        ∃ (monitor : Monitor) (fleets : Vector Fleet Config.fleets),
          exec .setupStream s = .next ({ s with
            ingest := { s.ingest with channels := channels, interval := code, origin := none }
            ring := [], monitor := monitor, fleets := fleets }.answerRecord rest
              (.reply tag 32 .done (enc16 channels ++ enc8 code))) ∧
          monitor.origin = none ∧ monitor.position = 0 ∧
          (∀ i : Fin Config.channels, monitor.table[i] =
            { s.monitor.table[i] with intervalSum := 0, partialMark := false, lowRun := 0, monitor := .normal }) ∧
          ∀ fl : Fin Config.fleets, fleets[fl] = { s.fleets[fl] with lastT0 := none }

/-! ### Channels -/

/-- An accepted CHANNEL SET writes the entries of its effective range from its records, thresholds clamped and the
active flag by the old and the new value, and no other entry; a CHANNEL READ returns its effective range and clears
exactly that range's latched flags; values out of range are refused BAD_VALUE and a wrong number of records BAD_LENGTH
(R26, R27, R28). The bits of the latched flags in the reply's records are the model's reading (log entry 13). -/
def Obligations.ChannelRequests : Prop :=
  (∀ (s : State) (tag : Byte) (first : Nat) (records : List ChannelRecord) (rest : List Frame),
    RecordRequest s 33 tag (enc16 first ++ enc16 records.length ++
      records.flatMap (fun r => enc8 r.active ++ encWord r.label ++ enc16 r.deadThreshold ++ enc16 r.noiseThreshold))
      rest → first < 65536 → records.length < 65536 →
    (∀ r ∈ records, r.active < 256 ∧ r.deadThreshold < 65536 ∧ r.noiseThreshold < 65536) →
    let n := min records.length (1024 - first)
    let bad := 1023 < first ∨ records = [] ∨ 256 < records.length ∨ ∃ r ∈ records, 1 < r.active
    (bad → exec .channelSet s = .next (s.answerRecord rest (.reply tag 33 .badValue []))) ∧
    (¬ bad → ∃ table : Vector Channel Config.channels,
      exec .channelSet s = .next ({ s with monitor := { s.monitor with table := table } }.answerRecord rest
        (.reply tag 33 .done (enc16 first ++ enc16 n))) ∧
      ∀ i : Fin Config.channels,
        (¬ (first ≤ i ∧ i < first + n) → table[i] = s.monitor.table[i]) ∧
        ∀ r, first ≤ i → records[i.val - first]? = some r →
          let old := s.monitor.table[i]
          let new := table[i]
          new.label = r.label ∧ new.deadThreshold = min r.deadThreshold 32767 ∧
            new.noiseThreshold = min r.noiseThreshold 32767 ∧ (new.active = true ↔ r.active = 1) ∧
            new.lastLevel = old.lastLevel ∧ new.latched = old.latched ∧
            (old.active = new.active → new.intervalSum = old.intervalSum ∧ new.partialMark = old.partialMark ∧
              new.monitor = old.monitor ∧ new.lowRun = old.lowRun) ∧
            (old.active = false → new.active = true → new.intervalSum = 0 ∧
              (new.partialMark = true ↔ s.monitor.position ≠ 0) ∧ new.monitor = old.monitor ∧
              new.lowRun = old.lowRun) ∧
            (old.active = true → new.active = false → new.intervalSum = 0 ∧ new.partialMark = false ∧
              new.monitor = .normal ∧ new.lowRun = 0))) ∧
  (∀ (s : State) (tag : Byte) (payload : List Byte) (rest : List Frame), RecordRequest s 33 tag payload rest →
    4 ≤ payload.length → payload.length ≠ 4 + 9 * halfAt payload 2 →
    exec .channelSet s = .next (s.answerRecord rest (.reply tag 33 .badLength []))) ∧
  ∀ (s : State) (tag : Byte) (first count : Nat) (rest : List Frame),
    RecordRequest s 34 tag (enc16 first ++ enc16 count) rest → first < 65536 → count < 65536 →
    let n := min count (1024 - first)
    (1023 < first ∨ count < 1 ∨ 256 < count →
      exec .channelRead s = .next (s.answerRecord rest (.reply tag 34 .badValue []))) ∧
    (first ≤ 1023 → 1 ≤ count → count ≤ 256 → ∃ table : Vector Channel Config.channels,
      exec .channelRead s = .next ({ s with monitor := { s.monitor with table := table } }.answerRecord rest
        (.reply tag 34 .done (enc16 first ++ enc16 n ++ (List.range n).flatMap fun i =>
          let c := s.monitor.table.toList.getD (first + i) Channel.reset
          enc16 (first + i) ++ encBool c.active ++ encWord c.label ++ enc16 c.deadThreshold ++
            enc16 c.noiseThreshold ++ enc8 c.monitor.number ++ enc8 c.lowRun ++ enc16 c.lastLevel ++
            enc8 (bitSet [c.latched.deadSeen, c.latched.noisySeen, c.latched.clipSeen, c.latched.dropoutSeen])))) ∧
      ∀ i : Fin Config.channels,
        (first ≤ i → i < first + n → table[i] = { s.monitor.table[i] with
          latched := { deadSeen := false, noisySeen := false, clipSeen := false, dropoutSeen := false } }) ∧
        (¬ (first ≤ i ∧ i < first + n) → table[i] = s.monitor.table[i]))

/-! ### Pilots -/

/-- An accepted PILOT OPEN starts a load with its fill timer at 2,000 ms; an accepted PILOT PART appends its samples and
restarts the timer; an accepted PILOT CLOSE moves the slot to COMMITTING; each touches that slot alone (R42, R43,
R44). -/
def Obligations.PilotLoading : Prop :=
  (∀ (s : State) (p : Fin Config.pilots) (n : Nat) (i : Fin 4) (tag : Byte) (rest : List Frame),
    SourceRequest s 16 tag (enc8 p ++ enc16 n ++ enc8 i) rest → 1024 ≤ n → n ≤ 16384 →
    (∀ a b c, (s.pilots[p]).phase ≠ .committing a b c) →
    ((s.pilots[p]).phase.isReady = true → (s.pilots[p]).pins = 0) →
    exec .pilotOpen s = .next ((s.setPilot p { s.pilots[p] with
        phase := .filling n i [] { length := 2000, deadline := s.clock + 2000 } }).answerSource rest
      (.reply tag 16 .done
        (enc8 p ++ [1] ++ (1 :: enc16 n) ++ (1 :: enc8 i) ++ (1 :: enc16 0))))) ∧
  (∀ (s : State) (p : Fin Config.pilots) (n : Nat) (i : Fin 4) (held part : List (BitVec 16)) (timer : Timer)
    (tag : Byte) (rest : List Frame),
    SourceRequest s 17 tag (enc8 p ++ enc16 held.length ++ enc16 part.length ++
      part.flatMap (fun x => enc16 x.toNat)) rest →
    (s.pilots[p]).phase = .filling n i held timer → n ≤ 16384 → 1 ≤ part.length → part.length ≤ 512 →
    held.length + part.length ≤ n →
    exec .pilotPart s = .next ((s.setPilot p { s.pilots[p] with
        phase := .filling n i (held ++ part) { length := 2000, deadline := s.clock + 2000 } }).answerSource rest
      (.reply tag 17 .done (enc8 p ++ [1] ++ (1 :: enc16 (held.length + part.length)))))) ∧
  ∀ (s : State) (p : Fin Config.pilots) (n : Nat) (i : Fin 4) (held : List (BitVec 16)) (timer : Timer) (tag : Byte)
    (rest : List Frame),
    SourceRequest s 18 tag (enc8 p) rest → (s.pilots[p]).phase = .filling n i held timer → n ≤ held.length →
    exec .pilotClose s = .next ((s.setPilot p { s.pilots[p] with phase := .committing n i held }).answerSource rest
      (.reply tag 18 .done (enc8 p ++ [2])))

/-- A refused PILOT OPEN, PART or CLOSE changes nothing but the reply: BAD_VALUE for a length or interval out of range,
BUSY while COMMITTING, PILOT_PINNED on a pinned READY slot; PILOT_STATE for a part or close of a slot that is not
FILLING, PILOT_SEQUENCE for an offset that differs from samples received, BAD_LENGTH past S, PILOT_INCOMPLETE for a
close before S samples; BAD_VALUE for a slot number above 15, where what OPEN and PART carry of the slot they do not
have are free values (R42, R43, R44; log entry 15). -/
def Obligations.PilotLoadRefusals : Prop :=
  (∀ (s : State) (slot : Nat) (tag : Byte) (rest : List Frame), 15 < slot → slot < 256 →
    (∀ more : List Byte, more.length = 3 → SourceRequest s 16 tag (enc8 slot ++ more) rest →
      ∃ bytes : List Byte, bytes.length = 9 ∧ exec .pilotOpen s = .next
        ({ s with freeCount := s.freeCount + 9 }.answerSource rest (.reply tag 16 .badValue (enc8 slot ++ bytes)))) ∧
    (∀ (offset : Nat) (part : List (BitVec 16)), part.length < 65536 →
      SourceRequest s 17 tag (enc8 slot ++ enc16 offset ++ enc16 part.length ++ part.flatMap (fun x => enc16 x.toNat))
        rest →
      ∃ bytes : List Byte, bytes.length = 4 ∧ exec .pilotPart s = .next
        ({ s with freeCount := s.freeCount + 4 }.answerSource rest (.reply tag 17 .badValue (enc8 slot ++ bytes)))) ∧
    (SourceRequest s 18 tag (enc8 slot) rest →
      exec .pilotClose s = .next (s.answerSource rest (.reply tag 18 .badValue [])))) ∧
  (∀ (s : State) (p : Fin Config.pilots) (n i : Nat) (tag : Byte) (rest : List Frame),
    SourceRequest s 16 tag (enc8 p ++ enc16 n ++ enc8 i) rest → n < 65536 → i < 256 →
    let refused := fun code => exec .pilotOpen s =
      .next (s.answerSource rest (.reply tag 16 code (enc8 p ++ pilotOpenFields s.pilots[p])))
    (n < 1024 ∨ 16384 < n ∨ 3 < i → refused .badValue) ∧
      (1024 ≤ n → n ≤ 16384 → i ≤ 3 → ((∃ a b c, (s.pilots[p]).phase = .committing a b c) → refused .busy) ∧
        ((s.pilots[p]).phase.isReady = true → 1 ≤ (s.pilots[p]).pins → refused .pilotPinned))) ∧
  (∀ (s : State) (p : Fin Config.pilots) (offset : Nat) (part : List (BitVec 16)) (tag : Byte) (rest : List Frame),
    SourceRequest s 17 tag (enc8 p ++ enc16 offset ++ enc16 part.length ++ part.flatMap (fun x => enc16 x.toNat))
      rest → offset < 65536 → part.length < 65536 →
    let refused := fun code => exec .pilotPart s =
      .next (s.answerSource rest (.reply tag 17 code (enc8 p ++ pilotPartFields s.pilots[p])))
    (part = [] ∨ 512 < part.length → refused .badLength) ∧
      (1 ≤ part.length → part.length ≤ 512 →
        ((∀ a b c d, (s.pilots[p]).phase ≠ .filling a b c d) → refused .pilotState) ∧
        ∀ n i held timer, (s.pilots[p]).phase = .filling n i held timer →
          (offset ≠ held.length → refused .pilotSequence) ∧
          (offset = held.length → n < offset + part.length → refused .badLength))) ∧
  ∀ (s : State) (p : Fin Config.pilots) (tag : Byte) (rest : List Frame), SourceRequest s 18 tag (enc8 p) rest →
    ((∀ a b c d, (s.pilots[p]).phase ≠ .filling a b c d) →
      exec .pilotClose s = .next (s.answerSource rest (.reply tag 18 .pilotState []))) ∧
    ∀ n i held timer, (s.pilots[p]).phase = .filling n i held timer → held.length < n →
      exec .pilotClose s = .next (s.answerSource rest (.reply tag 18 .pilotIncomplete []))

/-- PILOT QUERY returns a slot's fields and changes nothing, and is refused for a slot number above 15. PILOT PURGE empties the named slots that are FILLING or READY
with pin count 0, with last result PURGED, leaves every other slot, and answers with the purged and the skipped set
(R54, R55). -/
def Obligations.PilotQueryAndPurge : Prop :=
  (∀ (s : State) (slot : Nat) (tag : Byte) (rest : List Frame), 15 < slot → slot < 256 →
    SourceRequest s 19 tag (enc8 slot) rest →
    exec .pilotQuery s = .next (s.answerSource rest (.reply tag 19 .badValue []))) ∧
  (∀ (s : State) (p : Fin Config.pilots) (tag : Byte) (rest : List Frame), SourceRequest s 19 tag (enc8 p) rest →
    let answers : List Byte → Prop := fun fields => exec .pilotQuery s = .next (s.answerSource rest (.reply tag 19 .done
      (enc8 p ++ fields ++ enc16 (s.pilots[p]).generation.toNat ++ enc8 (s.pilots[p]).pins ++
        enc8 (s.pilots[p]).lastResult.number)))
    let none9 : List Byte := [0, 0, 0, 0, 0, 0, 0, 0, 0]
    ((s.pilots[p]).phase = .empty → answers ([0] ++ [0, 0, 0] ++ [0, 0] ++ [0, 0, 0] ++ none9 ++ [0, 0])) ∧
      (∀ n i samples timer, (s.pilots[p]).phase = .filling n i samples timer →
        answers ([1] ++ (1 :: enc16 n) ++ (1 :: enc8 i) ++ (1 :: enc16 samples.length) ++ none9 ++ [0, 0])) ∧
      (∀ n i samples, (s.pilots[p]).phase = .committing n i samples →
        answers ([2] ++ (1 :: enc16 n) ++ (1 :: enc8 i) ++ (1 :: enc16 samples.length) ++ none9 ++ [0, 0])) ∧
      ∀ n i samples energy, (s.pilots[p]).phase = .ready n i samples energy →
        answers ([3] ++ (1 :: enc16 n) ++ (1 :: enc8 i) ++ (1 :: enc16 samples.length) ++ (1 :: enc64 energy) ++
          (1 :: enc8 (autoShift energy)))) ∧
  ∀ (s : State) (set : BitVec 16) (tag : Byte) (rest : List Frame), SourceRequest s 20 tag (enc16 set.toNat) rest →
    ∃ (pilots : Vector PilotSlot Config.pilots) (purged skipped : BitVec 16),
      exec .pilotPurge s = .next ({ s with pilots := pilots }.answerSource rest
        (.reply tag 20 .done (enc16 purged.toNat ++ enc16 skipped.toNat))) ∧
      ∀ p : Fin Config.pilots,
        let slot := s.pilots[p]
        let free := (∃ a b c d, slot.phase = .filling a b c d) ∨ (slot.phase.isReady = true ∧ slot.pins = 0)
        let busy := (∃ a b c, slot.phase = .committing a b c) ∨ (slot.phase.isReady = true ∧ 1 ≤ slot.pins)
        (purged.getLsbD p = true ↔ set.getLsbD p = true ∧ free) ∧
          (skipped.getLsbD p = true ↔ set.getLsbD p = true ∧ busy) ∧
          (set.getLsbD p = true → free → pilots[p] = { slot with phase := .empty, lastResult := .purged }) ∧
          (¬ (set.getLsbD p = true ∧ free) → pilots[p] = slot)

/-- At a commit completion the energy is the sum of the squares of the samples: of 1 or more, the slot goes READY with
it, its generation rises by one modulo 65,536, and its last result is COMMITTED; of 0, it goes EMPTY with ZERO_ENERGY
and PILOT_FAULT is raised. Nothing else changes. The AUTO shift of an energy of bit length b is
max(0, min(40, b - 17)), at most 28 for an energy a commit can compute; AUTO resolves to it and a fixed shift to itself
(R47, R48, R50, R70). -/
def Obligations.CommitsJudgeEnergy : Prop :=
  (∀ energy b : Nat, 1 ≤ b → 2 ^ (b - 1) ≤ energy → energy < 2 ^ b →
    (autoShift energy : Int) = max 0 (min 40 ((b : Int) - 17)) ∧ (energy ≤ 2 ^ 44 → autoShift energy ≤ 28) ∧
      resolveShift none energy = autoShift energy ∧ ∀ cs, resolveShift (some cs) energy = cs) ∧
  ∀ (s : State) (p : Fin Config.pilots) (n : Nat) (i : Fin 4) (samples : List (BitVec 16)) (energy : Nat),
    (s.pilots[p]).phase = .committing n i samples →
    (energy : Int) = (samples.map fun x => x.toInt * x.toInt).sum →
    (1 ≤ energy → exec (.commitCompletion p) s = .next (s.setPilot p { s.pilots[p] with
      phase := .ready n i samples energy, generation := (s.pilots[p]).generation + 1, lastResult := .committed })) ∧
    (energy = 0 → exec (.commitCompletion p) s = .next ((s.setPilot p { s.pilots[p] with
      phase := .empty, lastResult := .zeroEnergy }).raise 0x20#8))


/-! ### Timers -/

/-- At the expiry of a fill timer the slot goes EMPTY with last result FILL_TIMEOUT and PILOT_FAULT is raised. At the
expiry of a report timer the outcome is NOREPORT with an empty fail set: with action PASS, or under KEEP, the sweep is
READY; with action FAIL QC_FAILED is raised, and under REJECT the sweep is resolved REJECTED_QC. No timer expires later
than one millisecond after its deadline: every step keeps that none is late, and at an idle step exactly the timers whose
latest moment comes with it expire (R45, R92 to R96, R131). The model's choices: a step on an empty queue without a grant
is one millisecond (log entry 3), the order of expiries at one step is dueCommands' (log entry 6), and at a commanded
expiry time passes up to the timer's deadline as idle steps let it pass, the timers and grants due on the way taking place
(log entries 4 and 5). -/
def Obligations.TimersExpire : Prop :=
  (∀ s : State, s.pending = [] → NoGrant s → (∀ timer, ¬ RunsTimer s timer) →
    step s = .next { s with clock := s.clock + 1 }) ∧
  (∀ s : State, s.pending = [] → NoGrant s → NoTimerLate s → DistinctNumbers s →
    step s = .next (runCommands (dueCommands s) { s with clock := s.clock + 1 })) ∧
  (∀ s t : State, DistinctNumbers s → NoTimerLate s → step s = .next t → NoTimerLate t) ∧
  (∀ (s : State) (time : Nat), NoTimerLate s → DistinctNumbers s →
    (time ≤ s.clock → passTo time s = s) ∧ (passTo time s).clock = max s.clock time ∧
      ∀ u, s.clock < time → step { s with pending := [] } = .next u →
        passTo time s = passTo time { u with pending := s.pending }) ∧
  (∀ (s : State) (c : Instr) (timer : Timer), NoTimerLate s → DistinctNumbers s →
    (∃ (p : Fin Config.pilots) (n : Nat) (i : Fin 4) (held : List (BitVec 16)),
      c = .fillTimeout p ∧ (s.pilots[p]).phase = .filling n i held timer) ∨
    (∃ e ∈ s.sweeps, c = .reportTimerExpiry e.number ∧ e.timer = some timer) ∨
    (∃ (k : Fin Config.stackSlots) (st : Stack),
      c = .lingerExpiry k ∧ s.slots[k] = some st ∧ st.phase = .linger timer) →
    exec c s = exec c (passTo timer.deadline s) ∧ CalmUntil (passTo timer.deadline s) timer.deadline) ∧
  (∀ (s : State) (p : Fin Config.pilots) (n : Nat) (i : Fin 4) (held : List (BitVec 16)) (timer : Timer),
    (s.pilots[p]).phase = .filling n i held timer → CalmUntil s timer.deadline →
    exec (.fillTimeout p) s = .next (({ s with clock := max s.clock timer.deadline }.setPilot p { s.pilots[p] with
      phase := .empty, lastResult := .fillTimeout }).raise 0x20#8)) ∧
  ∀ (s : State) (e : SweepEntry) (timer : Timer), DistinctNumbers s → e ∈ s.sweeps → e.timer = some timer →
    e.qc = .pending → e.dataComplete = true → e.stage = .waiting → CalmUntil s timer.deadline →
    let settled : SweepEntry :=
      { e with qc := .noReport, failSet := FailSet.empty, timer := none, stage := .ready }
    let s1 : State := { s with clock := max s.clock timer.deadline }
    let kept : State := { s1 with sweeps := s.sweeps.map fun x => if x.number = e.number then settled else x }
    (e.copy.noReport = .pass → exec (.reportTimerExpiry e.number) s = .next kept) ∧
      (e.copy.noReport = .fail → e.copy.policy = .keep →
        exec (.reportTimerExpiry e.number) s = .next (kept.raise 0x80#8)) ∧
      (e.copy.noReport = .fail → e.copy.policy = .reject →
        exec (.reportTimerExpiry e.number) s = .next (((s1.resolvedAs e .rejectedQc).sendResult
          ({ settled with stage := .waiting }.result .rejectedQc none)).raise (0x80#8 ||| resolutionRaises s e)))

/-! ### Announcements -/

/-- An announcement that passes the checks of a fleet without an open slot opens the lowest-numbered FREE slot with a
new stack serial, pins the pilot, adds the entry with the next sweep number and the parameter copy, and sets the fleet's
last accepted T0 and open slot; where the fleet's open slot holds another VP ID, that slot is sealed FLEET_MOVED first
(R64, R69, R70, R71, R92, R124, R125, R133). The reply's byte 0 for "opened" is the model's reading (log entry 13). -/
def Obligations.AnnouncementsOpenStacks : Prop :=
  ∀ (s : State) (fl : Fin Config.fleets) (vp : Word32) (p : Fin Config.pilots) (t0 : Ssn) (n : Nat) (i : Fin 4)
    (samples : List (BitVec 16)) (energy : Nat) (k : Fin Config.stackSlots) (tag : Byte) (rest : List Frame),
    SourceRequest s 21 tag (enc8 fl ++ encWord vp ++ enc8 p ++ encWord t0) rest →
    (s.fleets[fl]).defined = true → (s.pilots[p]).phase = .ready n i samples energy → i = s.ingest.interval →
    t0InBounds s t0 = true → slipPasses s.fleets[fl] t0 = true → s.sweeps.length < 32 →
    s.slots[k] = none → (∀ j : Fin Config.stackSlots, j < k → s.slots[j] ≠ none) →
    let q := (s.fleets[fl]).params
    let row : Ssn := t0 + BitVec.ofNat 32 (n + q.listen - 2)
    let complete : Bool := match s.newest with
      | none => false
      | some m => ssnAtOrBefore row m
    let cs := q.shift.getD (autoShift energy)
    let entry : SweepEntry :=
      { number := s.sweepCounter, fleet := fl, vp := vp, slot := k, pilot := p, t0 := t0, pilotLength := n,
        dataRow := row,
        copy :=
          { listen := q.listen, shift := cs, weight := q.weight, burst := q.burst, clipLimit := q.clipLimit,
            peakPhase := q.peakPhase, meanPhase := q.meanPhase, distortion := q.distortion, minForce := q.minForce,
            vibrators := q.vibrators, policy := q.policy, noReport := q.noReport, reportTimeout := q.reportTimeout },
        dataComplete := complete, qc := .pending,
        failSet :=
          { missing := false, phasePeak := false, phaseMean := false, distortion := false, force := false },
        stage := .waiting,
        timer := if complete then some { length := q.reportTimeout, deadline := s.clock + q.reportTimeout }
          else none }
    let stack : Stack :=
      { phase := .opened, fleet := fl, vp := vp, serial := s.stackSerials, listen := q.listen,
        interval := s.ingest.interval, channels := s.ingest.channels, fold := 0, pending := 1, qcKept := 0,
        qcRejected := 0, dropped := 0, firstT0 := none, lastT0 := none, tag := 1, corrSat := false,
        records := List.replicate s.ingest.channels
          { acc := List.replicate q.listen 0, weightSum := 0, accepted := 0, edited := 0,
            causes := { dead := false, clip := false, burst := false } } }
    let accepted : State :=
      { ((s.setSlot k (some stack)).setPilot p { s.pilots[p] with pins := (s.pilots[p]).pins + 1 }).setFleet fl
          { s.fleets[fl] with lastT0 := some t0, openSlot := some k } with
        sweeps := s.sweeps ++ [entry], sweepCounter := s.sweepCounter + 1, stackSerials := s.stackSerials + 1 }
    let reply : List Byte → Message := fun moved => .reply tag 21 .done
      (encWord s.sweepCounter ++ enc8 k ++ [0] ++ enc8 cs ++ encWord row ++ encBool complete ++ moved)
    ((s.fleets[fl]).openSlot = none →
      exec .sweepAnnounce s = .next (accepted.answerSource rest (reply [0, 0]))) ∧
    ∀ (k0 : Fin Config.stackSlots) (st0 : Stack), (s.fleets[fl]).openSlot = some k0 → s.slots[k0] = some st0 →
      st0.vp ≠ vp → st0.fleet = fl →
      (1 ≤ st0.pending → exec .sweepAnnounce s =
        .next ((accepted.setSlot k0 (some { st0 with phase := .draining .fleetMoved })).answerSource rest
          (reply (1 :: enc8 k0)))) ∧
      (st0.pending = 0 → exec .sweepAnnounce s =
        .next (({ accepted.setSlot k0 (some { st0 with phase := .sealed .fleetMoved s.sealOrders }) with
          sealOrders := s.sealOrders + 1, harvestQueue := s.harvestQueue ++ [k0] }.answerSource rest
            (reply (1 :: enc8 k0))).raise 1))

/-- An announcement for the VP of the fleet's open slot joins it where fold plus pending is below 32 and the listen
lengths agree: pending and tag rise by one, a LINGER slot's timer restarts with the fleet's linger time, no slot is
opened, the pilot is pinned, and the entry has the next sweep number, the parameter copy with the resolved shift, the
data-complete row and, where that row is in the ring already, a running report timer (R64, R69, R70, R71, R92, R126,
R131). The reply's byte 1 for "joined" is the model's reading (log entry 13). -/
def Obligations.AnnouncementsJoinStacks : Prop :=
  ∀ (s : State) (fl : Fin Config.fleets) (vp : Word32) (p : Fin Config.pilots) (t0 : Ssn) (n : Nat) (i : Fin 4)
    (samples : List (BitVec 16)) (energy : Nat) (k : Fin Config.stackSlots) (st : Stack) (tag : Byte)
    (rest : List Frame),
    SourceRequest s 21 tag (enc8 fl ++ encWord vp ++ enc8 p ++ encWord t0) rest →
    (s.fleets[fl]).defined = true → (s.pilots[p]).phase = .ready n i samples energy → i = s.ingest.interval →
    t0InBounds s t0 = true → slipPasses s.fleets[fl] t0 = true → s.sweeps.length < 32 →
    (s.fleets[fl]).openSlot = some k → s.slots[k] = some st → st.vp = vp → st.fleet = fl → st.isJoinable = true →
    st.fold + st.pending < 32 → (s.fleets[fl]).params.listen = st.listen →
    let q := (s.fleets[fl]).params
    let row : Ssn := t0 + BitVec.ofNat 32 (n + q.listen - 2)
    let complete : Bool := match s.newest with
      | none => false
      | some m => ssnAtOrBefore row m
    let cs := q.shift.getD (autoShift energy)
    let entry : SweepEntry :=
      { number := s.sweepCounter, fleet := fl, vp := vp, slot := k, pilot := p, t0 := t0, pilotLength := n,
        dataRow := row,
        copy :=
          { listen := q.listen, shift := cs, weight := q.weight, burst := q.burst, clipLimit := q.clipLimit,
            peakPhase := q.peakPhase, meanPhase := q.meanPhase, distortion := q.distortion, minForce := q.minForce,
            vibrators := q.vibrators, policy := q.policy, noReport := q.noReport, reportTimeout := q.reportTimeout },
        dataComplete := complete, qc := .pending,
        failSet :=
          { missing := false, phasePeak := false, phaseMean := false, distortion := false, force := false },
        stage := .waiting,
        timer := if complete then some { length := q.reportTimeout, deadline := s.clock + q.reportTimeout }
          else none }
    let joined : Stack :=
      { st with
        phase := match st.phase with
          | .linger _ => .linger { length := q.linger, deadline := s.clock + q.linger }
          | ph => ph
        pending := st.pending + 1, tag := st.tag + 1 }
    exec .sweepAnnounce s = .next ({ ((s.setSlot k (some joined)).setPilot p
        { s.pilots[p] with pins := (s.pilots[p]).pins + 1 }).setFleet fl
          { s.fleets[fl] with lastT0 := some t0 } with
        sweeps := s.sweeps ++ [entry], sweepCounter := s.sweepCounter + 1 }.answerSource rest
      (.reply tag 21 .done (encWord s.sweepCounter ++ enc8 k ++ [1] ++ enc8 cs ++ encWord row ++ encBool complete ++
        [0, 0])))

/-- The checks of an announcement in their order: the first that fails gives the outcome, with the ring's bounds in the
reply and no other effect, apart from the SLOTS_EXHAUSTED of NO_STACK_SLOT (R65, R68, R71). -/
def Obligations.AnnouncementRefusalOrder : Prop :=
  ∀ (s : State) (vp : Word32) (t0 : Ssn) (tag : Byte) (rest : List Frame),
    let bounds := encOption 4 (s.oldest.map encWord) ++ encOption 4 (s.newest.map encWord)
    let refused : Code → Prop := fun code =>
      exec .sweepAnnounce s = .next (s.answerSource rest (.reply tag 21 code bounds))
    (∀ fleet pilot : Nat, fleet < 256 → pilot < 256 → 7 < fleet ∨ 15 < pilot →
      SourceRequest s 21 tag (enc8 fleet ++ encWord vp ++ enc8 pilot ++ encWord t0) rest → refused .badValue) ∧
    ∀ (fl : Fin Config.fleets) (p : Fin Config.pilots),
      SourceRequest s 21 tag (enc8 fl ++ encWord vp ++ enc8 p ++ encWord t0) rest →
      ((s.fleets[fl]).defined = false → refused .fleetUndefined) ∧
      ((s.fleets[fl]).defined = true →
        ((s.pilots[p]).phase.isReady = false → refused .pilotNotReady) ∧
        ∀ n i samples energy, (s.pilots[p]).phase = .ready n i samples energy →
          (i ≠ s.ingest.interval → refused .intervalMismatch) ∧
          (i = s.ingest.interval →
            (t0InBounds s t0 = false → refused .t0OutOfRange) ∧
            (t0InBounds s t0 = true →
              (slipPasses s.fleets[fl] t0 = false → refused .slipTooShort) ∧
              (slipPasses s.fleets[fl] t0 = true →
                (32 ≤ s.sweeps.length → refused .tableFull) ∧
                (s.sweeps.length < 32 →
                  (∀ k st, (s.fleets[fl]).openSlot = some k → s.slots[k] = some st → st.vp = vp →
                    (32 ≤ st.fold + st.pending → refused .foldFull) ∧
                    (st.fold + st.pending < 32 → (s.fleets[fl]).params.listen ≠ st.listen →
                      refused .listenMismatch)) ∧
                  ((s.fleets[fl]).openSlot = none ∨
                      (∃ k st, (s.fleets[fl]).openSlot = some k ∧ s.slots[k] = some st ∧ st.vp ≠ vp) →
                    (∀ k : Fin Config.stackSlots, s.slots[k] ≠ none) →
                    exec .sweepAnnounce s = .next
                      ((s.answerSource rest (.reply tag 21 .noStackSlot bounds)).raise 0x40#8)))))))

/-! ### Reports and cancels -/

/-- A report is judged on the first entry carried for each vibrator id, its values clamped: fewer ids than V give
MISSING, and each limit that some of those entries passes gives its cause; a value equal to its limit passes (R86, R88,
R89). -/
def Obligations.ReportsAreEvaluated : Prop :=
  ∀ (q : SweepCopy) (vs : List VibratorEntry),
    let f := evaluateReport q vs
    let tested : VibratorEntry → Prop := fun v =>
      ∃ i : Nat, vs[i]? = some v ∧ ∀ (j : Nat) (w : VibratorEntry), j < i → vs[j]? = some w → w.id ≠ v.id
    (distinctEntries [] vs).length = (vs.map VibratorEntry.id).dedup.length ∧
      (f.missing = true ↔ (vs.map VibratorEntry.id).dedup.length < q.vibrators) ∧
      (f.phasePeak = true ↔ ∃ v, tested v ∧ q.peakPhase < min v.peakPhase 1800) ∧
      (f.phaseMean = true ↔ ∃ v, tested v ∧ q.meanPhase < min v.meanPhase 1800) ∧
      (f.distortion = true ↔ ∃ v, tested v ∧ q.distortion < min v.distortion 1000) ∧
      (f.force = true ↔ ∃ v, tested v ∧ min v.force 200 < q.minForce) ∧
      (f.isEmpty = true ↔ f.missing = false ∧ f.phasePeak = false ∧ f.phaseMean = false ∧ f.distortion = false ∧
        f.force = false)

/-- The checks of a SWEEP REPORT in their order, each refusal without effect; an accepted report sets outcome and fail
set, stops the timer, raises QC_FAILED for FAIL, and under REJECT resolves a failing sweep REJECTED_QC with the REPLY
before the SWEEP RESULT; otherwise a data-complete WAITING sweep is READY (R85, R90, R91, R95, R96). -/
def Obligations.ReportsSettleSweeps : Prop :=
  ∀ (s : State) (number : Word32) (vs : List VibratorEntry) (tag : Byte) (rest : List Frame),
    SourceRequest s 22 tag (encWord number ++ enc8 vs.length ++ vs.flatMap (fun v =>
      enc16 v.id ++ enc16 v.peakPhase ++ enc16 v.meanPhase ++ enc16 v.distortion ++ enc16 v.force)) rest →
    vs.length < 256 → (∀ v ∈ vs, v.id < 65536 ∧ v.peakPhase < 65536 ∧ v.meanPhase < 65536 ∧ v.distortion < 65536 ∧
      v.force < 65536) → DistinctNumbers s →
    let refused : Code → List Byte → Prop := fun code fields =>
      exec .sweepReport s = .next (s.answerSource rest (.reply tag 22 code (encWord number ++ fields)))
    let stands : SweepEntry → List Byte := fun e =>
      enc8 e.qc.number ++ e.failSet.byte ++ enc8 e.stage.number ++ encBool e.dataComplete
    (vs = [] ∨ 8 < vs.length → refused .badLength []) ∧
    (1 ≤ vs.length → vs.length ≤ 8 →
      ((∃ v ∈ vs, 15 < v.id) → refused .badValue []) ∧
      ((∀ v ∈ vs, v.id ≤ 15) →
        ((∀ e ∈ s.sweeps, e.number ≠ number) → refused .sweepUnknown []) ∧
        ∀ e ∈ s.sweeps, e.number = number →
          (e.qc = .pass ∨ e.qc = .fail → refused .reportDuplicate (stands e)) ∧
          (e.qc = .noReport → refused .reportLate (stands e)) ∧
          (e.qc = .pending →
            let fails := evaluateReport e.copy vs
            let settled : SweepEntry :=
              { e with
                qc := if fails.isEmpty then .pass else .fail
                failSet := fails
                timer := none }
            let distinct := enc8 (vs.map VibratorEntry.id).dedup.length
            (fails.isEmpty = true ∨ e.copy.policy = .keep →
              let moved : SweepEntry :=
                { settled with
                  stage := if e.dataComplete = true ∧ e.stage = .waiting then .ready else e.stage }
              exec .sweepReport s = .next
                (({ s with sweeps := s.sweeps.map fun x : SweepEntry => if x.number = number then moved else x }.answerSource rest
                  (.reply tag 22 .done (encWord number ++ stands moved ++ distinct))).raise
                    (if fails.isEmpty then 0 else 0x80#8))) ∧
            (fails.isEmpty = false → e.copy.policy = .reject →
              exec .sweepReport s = .next
                ((((s.resolvedAs e .rejectedQc).answerSource rest (.reply tag 22 .done
                  (encWord number ++ [2] ++ fails.byte ++ [4] ++ encBool e.dataComplete ++ distinct))).sendResult
                    (settled.result .rejectedQc none)).raise (0x80#8 ||| resolutionRaises s e))))))

/-- A SWEEP CANCEL of a WAITING, READY or CORRELATING sweep is answered DONE and resolves it CANCELLED, aborting its job,
with the REPLY before the SWEEP RESULT; of a MERGING sweep it is answered TOO_LATE and of none SWEEP_UNKNOWN, without
effect. A SWEEP RESULT takes the unsolicited sequence, and is discarded while the Source Link is down (R74, R76, R77,
R117, R170). -/
def Obligations.CancelsResolveSweeps : Prop :=
  (∀ (s : State) (number : Word32) (tag : Byte) (rest : List Frame), SourceRequest s 23 tag (encWord number) rest →
    DistinctNumbers s →
    ((∀ e ∈ s.sweeps, e.number ≠ number) →
      exec .sweepCancel s = .next (s.answerSource rest (.reply tag 23 .sweepUnknown []))) ∧
    ∀ e ∈ s.sweeps, e.number = number →
      ((∃ l, e.stage = .merging l) →
        exec .sweepCancel s = .next (s.answerSource rest (.reply tag 23 .tooLate []))) ∧
      ((∀ l, e.stage ≠ .merging l) → exec .sweepCancel s = .next
        ((((s.resolvedAs e .cancelled).answerSource rest (.reply tag 23 .done [])).sendResult
          (e.result .cancelled none)).raise (resolutionRaises s e)))) ∧
  ∀ (s : State) (r : SweepResult),
    (s.source.up = true → s.sendResult r = { s with
      source := { s.source with
        sequence := s.source.sequence + 1, output := s.source.output ++ [.sweepResult s.source.sequence r] } }) ∧
    (s.source.up = false → s.sendResult r = { s with
      source := { s.source with sequence := s.source.sequence + 1 } })

/-! ### The end of a VP, seals and releases -/

/-- A VP END of the VP of the fleet's open slot starts or restarts its linger with the fleet's linger time, tag rising by
one, or with linger time 0 seals it LINGER_EXPIRED at once, tag unchanged; refusals change nothing (R130, R133, R135).
That a refusal carries slot and VP ID under one presence byte, six zero bytes for none, is the model's reading (log entry
12). -/
def Obligations.VpEndsStartTheLinger : Prop :=
  (∀ (s : State) (fleet : Nat) (vp : Word32) (tag : Byte) (rest : List Frame), 7 < fleet → fleet < 256 →
    SourceRequest s 24 tag (enc8 fleet ++ encWord vp) rest →
    exec .vpEnd s = .next (s.answerSource rest (.reply tag 24 .badValue [0, 0, 0, 0, 0, 0]))) ∧
  ∀ (s : State) (fl : Fin Config.fleets) (vp : Word32) (tag : Byte) (rest : List Frame),
    SourceRequest s 24 tag (enc8 fl ++ encWord vp) rest →
    ((s.fleets[fl]).openSlot = none →
      exec .vpEnd s = .next (s.answerSource rest (.reply tag 24 .vpUnknown [0, 0, 0, 0, 0, 0]))) ∧
    ∀ (k : Fin Config.stackSlots) (st : Stack), (s.fleets[fl]).openSlot = some k → s.slots[k] = some st →
      st.fleet = fl →
      let ms := (s.fleets[fl]).params.linger
      (st.vp ≠ vp → exec .vpEnd s =
        .next (s.answerSource rest (.reply tag 24 .vpUnknown (1 :: (enc8 k ++ encWord st.vp))))) ∧
      (st.vp = vp → 1 ≤ ms → exec .vpEnd s =
        .next ((s.setSlot k (some { st with
          phase := .linger { length := ms, deadline := s.clock + ms }, tag := st.tag + 1 })).answerSource rest
            (.reply tag 24 .done
              (enc8 k ++ [2] ++ enc16 (st.tag + 1).toNat ++ enc8 st.fold ++ enc8 st.pending ++ [0])))) ∧
      (st.vp = vp → ms = 0 → exec .vpEnd s =
        .next (((s.sealedAs k .lingerExpired st).answerSource rest
          (.reply tag 24 .done (enc8 k ++ (if 1 ≤ st.pending then [3] else [4]) ++ enc16 st.tag.toNat ++
            enc8 st.fold ++ enc8 st.pending ++ [1]))).raise (sealRaises st)))

/-- A slot in OPEN or LINGER is sealed by its linger expiry and by a STACK SEAL without a tag or with the slot's tag;
another tag is refused TAG_STALE, another state SLOT_STATE and a value out of range BAD_VALUE, without effect. A STACK
RELEASE frees a SEALED or HARVESTING slot and takes it out of the harvest queue. The model's choices: at an expiry time
passes up to the deadline (log entry 4; TimersExpire says what takes place on the way), a FREE slot's reply carries its
number and its state (log entry 12), and what a STACK SEAL above slot 11 carries of the slot are free values (log entry
15; R131, R133, R136, R140). -/
def Obligations.SealsAndReleases : Prop :=
  (∀ (s : State) (k : Fin Config.stackSlots) (st : Stack) (timer : Timer), s.slots[k] = some st →
    st.phase = .linger timer → CalmUntil s timer.deadline →
    exec (.lingerExpiry k) s = .next
      (({ s with clock := max s.clock timer.deadline }.sealedAs k .lingerExpired st).raise (sealRaises st))) ∧
  (∀ (s : State) (slot : Nat) (more : List Byte) (tag : Byte) (rest : List Frame), 11 < slot → slot < 256 →
    more.length = 3 → RecordRequest s 39 tag (enc8 slot ++ more) rest →
    ∃ (bytes : List Byte) (n : Nat), exec .stackSeal s = .next
      ({ s with freeCount := n }.answerRecord rest (.reply tag 39 .badValue (enc8 slot ++ bytes)))) ∧
  (∀ (s : State) (k : Fin Config.stackSlots) (presence : Nat) (carried : BitVec 16) (tag : Byte) (rest : List Frame),
    RecordRequest s 39 tag (enc8 k ++ enc8 presence ++ enc16 carried.toNat) rest → presence < 256 →
    (s.slots[k] = none → exec .stackSeal s = .next (s.answerRecord rest
      (.reply tag 39 (if presence ≤ 1 then .slotState else .badValue) (enc8 k ++ [0])))) ∧
    ∀ st, s.slots[k] = some st →
      let fields : Nat → Option SealCause → List Byte := fun state cause =>
        enc8 k ++ enc8 state ++ enc8 st.fleet ++ encWord st.vp ++ encWord st.serial ++ enc16 st.tag.toNat ++
          enc8 st.fold ++ enc8 st.pending ++ encOption 1 (cause.map fun c => enc8 c.number)
      (1 < presence → exec .stackSeal s =
        .next (s.answerRecord rest (.reply tag 39 .badValue (fields st.phase.number st.sealCause)))) ∧
      (presence ≤ 1 → st.isJoinable = false → exec .stackSeal s =
        .next (s.answerRecord rest (.reply tag 39 .slotState (fields st.phase.number st.sealCause)))) ∧
      (st.isJoinable = true → presence = 1 → carried ≠ st.tag → exec .stackSeal s =
        .next (s.answerRecord rest (.reply tag 39 .tagStale (fields st.phase.number none)))) ∧
      (st.isJoinable = true → presence = 0 ∨ presence = 1 ∧ carried = st.tag → exec .stackSeal s =
        .next (((s.sealedAs k .recorderSeal st).answerRecord rest
          (.reply tag 39 .done (fields (if 1 ≤ st.pending then 3 else 4) (some .recorderSeal)))).raise
            (sealRaises st)))) ∧
  (∀ (s : State) (slot : Nat) (tag : Byte) (rest : List Frame), 11 < slot → slot < 256 →
    RecordRequest s 41 tag (enc8 slot) rest →
    exec .stackRelease s = .next (s.answerRecord rest (.reply tag 41 .badValue []))) ∧
  ∀ (s : State) (k : Fin Config.stackSlots) (tag : Byte) (rest : List Frame),
    RecordRequest s 41 tag (enc8 k) rest → s.harvestQueue.Nodup →
    (s.slots[k] = none → exec .stackRelease s = .next (s.answerRecord rest (.reply tag 41 .slotState []))) ∧
    ∀ st, s.slots[k] = some st →
      (st.isSealed = false → exec .stackRelease s = .next (s.answerRecord rest (.reply tag 41 .slotState []))) ∧
      (st.isSealed = true → exec .stackRelease s =
        .next ({ s.setSlot k none with harvestQueue := s.harvestQueue.filter fun j => decide (j ≠ k) }.answerRecord
          rest (.reply tag 41 .done (enc8 k ++ enc8 st.phase.number ++ encWord st.serial))))

/-! ### Lanes -/

/-- A grant gives the Dispatcher's sweep to its lane: stage CORRELATING, and a job with the entry's inputs and the
channels 0..C-1 as they stand; without a READY sweep and an IDLE lane nothing happens. At its CORRELATE completion a lane
has its scratch and its sweep is MERGING; it takes its slot's merge port where that is free with nobody waiting, and
waits at the end of the list otherwise (R99, R101, R111, R112). On an empty queue a grant that is due is the next step.
The model's choices: a grant that cannot be made leaves the state (log entry 1), an empty queue makes grants before time
passes (log entry 5), and the scratch is that of the state at the completion (log entry 10). -/
def Obligations.GrantsStartJobs : Prop :=
  (∀ s : State, chooseSweep s.sweeps = none ∨ chooseLane s = none → exec .grant s = .next s) ∧
  (∀ s : State, s.pending = [] → chooseSweep s.sweeps ≠ none → chooseLane s ≠ none → step s = exec .grant s) ∧
  (∀ (s : State) (e : SweepEntry) (l : Fin Config.lanes), chooseSweep s.sweeps = some e → chooseLane s = some l →
    s.ingest.channels ≤ 1024 →
    exec .grant s = .next { s.setLane l (.correlating
        { sweep := e.number, slot := e.slot, t0 := e.t0, pilotLength := e.pilotLength, pilot := e.pilot,
          listen := e.copy.listen, shift := e.copy.shift, weight := e.copy.weight, burst := e.copy.burst,
          clipLimit := e.copy.clipLimit, qc := e.qc, noReport := e.copy.noReport,
          snapshot := (List.range s.ingest.channels).map fun c =>
            { active := (s.monitor.table.toList.getD c Channel.reset).active
              monitor := (s.monitor.table.toList.getD c Channel.reset).monitor } }) with
      sweeps := s.sweeps.map fun x => if x.number = e.number then { x with stage := .correlating l } else x }) ∧
  ∀ (s : State) (l : Fin Config.lanes) (j : Job), s.lanes[l] = .correlating j →
    let port := s.ports[j.slot]
    let merging : State := { s with
      sweeps := s.sweeps.map fun x => if x.number = j.sweep then { x with stage := .merging l } else x }
    (port.holder = none → port.waiting = [] → exec (.correlateCompletion l) s =
      .next ((merging.setPort j.slot { holder := some l, waiting := [] }).setLane l (.merging j (correlate j s)))) ∧
    (port.holder ≠ none ∨ port.waiting ≠ [] → exec (.correlateCompletion l) s =
      .next ((merging.setPort j.slot { port with waiting := port.waiting ++ [l] }).setLane l
        (.mergeWait j (correlate j s))))

/-- At a merge completion the scratch is added to the slot's records and the slot-wide changes are made in the one event:
fold, first and last T0, qc_kept, CORR_SAT, pending and tag; the sweep is resolved MERGED with its job's counts, the lane
is IDLE, and the merge port passes to the first waiting lane or becomes free. A record with no cause adds w × r[k] to
A[k], its weight and one accepted trace; an edit adds one edited trace and its cause; an INACTIVE one nothing (R112,
R113, R114, R115). -/
def Obligations.MergesEnterTheStack : Prop :=
  (∀ (s : State) (l : Fin Config.lanes) (j : Job) (sc : Scratch) (e : SweepEntry) (st : Stack),
    s.lanes[l] = .merging j sc → DistinctNumbers s → e ∈ s.sweeps → e.number = j.sweep → e.slot = j.slot →
    e.stage = .merging l → s.slots[j.slot] = some st →
    let failing := j.qc = .fail ∨ (j.qc = .noReport ∧ j.noReport = .fail)
    let merged : Stack :=
      { st with
        records := zipFirst mergeChannel st.records sc.records
        fold := st.fold + 1
        firstT0 := match st.firstT0 with
          | none => some j.t0
          | some o => if st.fold = 0 ∨ ssnBefore j.t0 o = true then some j.t0 else some o
        lastT0 := match st.lastT0 with
          | none => some j.t0
          | some o => if st.fold = 0 ∨ ssnBefore o j.t0 = true then some j.t0 else some o
        qcKept := if failing then st.qcKept + 1 else st.qcKept
        corrSat := st.corrSat || decide (1 ≤ sc.counts.saturated) }
    let resolved : State := ((s.setSlot j.slot (some merged)).resolvedAs e .merged).setLane l .idle
    let port := s.ports[j.slot]
    let result := e.result .merged (some sc.counts)
    (port.waiting = [] → exec (.mergeCompletion l) s =
      .next (((resolved.setPort j.slot { holder := none, waiting := [] }).sendResult result).raise
        (resolutionRaises s e))) ∧
    ∀ (l2 : Fin Config.lanes) (waiting : List (Fin Config.lanes)) (j2 : Job) (sc2 : Scratch),
      port.waiting = l2 :: waiting → s.lanes[l2] = .mergeWait j2 sc2 → exec (.mergeCompletion l) s =
        .next ((((resolved.setPort j.slot { holder := some l2, waiting := waiting }).setLane l2
          (.merging j2 sc2)).sendResult result).raise (resolutionRaises s e))) ∧
  ∀ (c : ChannelStack) (r : TraceRecord),
    (r.cause = none → r.trace.length = c.acc.length → mergeChannel c r =
      { c with
        acc := (List.range c.acc.length).map fun k => c.acc.getD k 0 + r.weight * r.trace.getD k 0
        weightSum := c.weightSum + r.weight, accepted := c.accepted + 1 }) ∧
    (r.cause = some .inactive → mergeChannel c r = c) ∧
    (r.cause = some .dead → mergeChannel c r =
      { c with edited := c.edited + 1, causes := { c.causes with dead := true } }) ∧
    (r.cause = some .clip → mergeChannel c r =
      { c with edited := c.edited + 1, causes := { c.causes with clip := true } }) ∧
    (r.cause = some .burst → mergeChannel c r =
      { c with edited := c.edited + 1, causes := { c.causes with burst := true } })

/-! ### Fleet records and the requests that read -/

/-- An accepted FLEET SET writes every parameter of the record, each numeric field clamped into its range, keeps the two
dynamic fields, and answers with the record as stored; a fleet number above 7, or a code other than 0 or 1, is refused
BAD_VALUE with no effect (R60). The widths of the record in the reply and AUTO as 255 (log entry 14), and the fleet number
in a refusal (log entry 12), are the model's reading. -/
def Obligations.FleetSetWritesTheRecord : Prop :=
  ∀ (s : State) (fleet defined v listen shift weight burst clip peak mean dist force policy action timeout linger
      slip : Nat) (tag : Byte) (rest : List Frame),
    RecordRequest s 35 tag (enc8 fleet ++ enc8 defined ++ enc8 v ++ enc16 listen ++ enc8 shift ++ enc8 weight ++
      enc32 burst ++ enc16 clip ++ enc16 peak ++ enc16 mean ++ enc16 dist ++ enc16 force ++ enc8 policy ++
      enc8 action ++ enc16 timeout ++ enc16 linger ++ enc16 slip) rest →
    fleet < 256 → defined < 256 → v < 256 → listen < 65536 → shift < 256 → weight < 256 → burst < 4294967296 →
    clip < 65536 → peak < 65536 → mean < 65536 → dist < 65536 → force < 65536 → policy < 256 → action < 256 →
    timeout < 65536 → linger < 65536 → slip < 65536 →
    let coded := defined ≤ 1 ∧ weight ≤ 1 ∧ policy ≤ 1 ∧ action ≤ 1
    (7 < fleet ∨ ¬ coded →
      exec .fleetSet s = .next (s.answerRecord rest (.reply tag 35 .badValue (enc8 fleet)))) ∧
    ∀ fl : Fin Config.fleets, fl.val = fleet → coded →
      let stored : Fleet :=
        { s.fleets[fl] with
          defined := decide (defined = 1)
          params :=
            { vibrators := max 1 (min 6 v), listen := max 256 (min 8192 listen),
              shift := if shift = 255 then none else some (min 40 shift),
              weight := if weight = 0 then .plain else .diversity, burst := min 1073741824 burst,
              clipLimit := min 255 clip, peakPhase := min 1800 peak, meanPhase := min 1800 mean,
              distortion := min 1000 dist, minForce := min 200 force,
              policy := if policy = 0 then .reject else .keep, noReport := if action = 0 then .pass else .fail,
              reportTimeout := max 100 (min 30000 timeout), linger := min 10000 linger,
              minSlip := min 32767 slip } }
      let q := stored.params
      exec .fleetSet s = .next ((s.setFleet fl stored).answerRecord rest (.reply tag 35 .done
        (enc8 fl ++ enc8 defined ++ enc8 q.vibrators ++ enc16 q.listen ++ enc8 (q.shift.getD 255) ++ enc8 weight ++
          enc32 q.burst ++ enc16 q.clipLimit ++ enc16 q.peakPhase ++ enc16 q.meanPhase ++ enc16 q.distortion ++
          enc16 q.minForce ++ enc8 policy ++ enc8 action ++ enc16 q.reportTimeout ++ enc16 q.linger ++
          enc16 q.minSlip ++ encOption 4 ((s.fleets[fl]).lastT0.map encWord) ++
          encOption 1 ((s.fleets[fl]).openSlot.map fun k => enc8 k))))

/-- FLEET READ, STACK LIST, STACK STATUS, DEVICE STATUS and CAPABILITY READ answer DONE with the fields their rules list,
or BAD_VALUE for a value out of range, and change nothing else (R62, R121, R142, R143, R184, R185). The bytes before
lists, the layout of optional groups, the one byte of the origin state and that of a free merge port are the model's
reading (log entries 11 to 14); the byte that numbers 256 channel records is a free value (log entry 15). -/
def Obligations.QueriesChangeNothing : Prop :=
  (∀ (s : State) (fleet : Nat) (tag : Byte) (rest : List Frame), 7 < fleet → fleet < 256 →
    RecordRequest s 36 tag (enc8 fleet) rest →
    exec .fleetRead s = .next (s.answerRecord rest (.reply tag 36 .badValue []))) ∧
  (∀ (s : State) (fl : Fin Config.fleets) (tag : Byte) (rest : List Frame), RecordRequest s 36 tag (enc8 fl) rest →
    exec .fleetRead s = .next (s.answerRecord rest (.reply tag 36 .done
      (enc8 (s.fleets[fl]).params.vibrators ++ enc16 (s.fleets[fl]).params.listen ++
        enc8 ((s.fleets[fl]).params.shift.getD 255) ++
        enc8 (match (s.fleets[fl]).params.weight with | .plain => 0 | .diversity => 1) ++
        enc32 (s.fleets[fl]).params.burst ++ enc8 (s.fleets[fl]).params.clipLimit ++
        enc16 (s.fleets[fl]).params.peakPhase ++ enc16 (s.fleets[fl]).params.meanPhase ++
        enc16 (s.fleets[fl]).params.distortion ++ enc8 (s.fleets[fl]).params.minForce ++
        enc8 (match (s.fleets[fl]).params.policy with | .reject => 0 | .keep => 1) ++
        enc8 (match (s.fleets[fl]).params.noReport with | .pass => 0 | .fail => 1) ++
        enc16 (s.fleets[fl]).params.reportTimeout ++ enc16 (s.fleets[fl]).params.linger ++
        enc16 (s.fleets[fl]).params.minSlip ++ encBool (s.fleets[fl]).defined ++
        encOption 4 ((s.fleets[fl]).lastT0.map encWord) ++
        encOption 5 ((s.openStack fl).map fun x => enc8 x.1 ++ encWord x.2.vp))))) ∧
  (∀ (s : State) (tag : Byte) (rest : List Frame), RecordRequest s 37 tag [] rest →
    exec .stackList s = .next (s.answerRecord rest (.reply tag 37 .done
      (([12] : List Byte) ++ (List.finRange Config.stackSlots).flatMap (fun k : Fin Config.stackSlots =>
          enc8 k ++ (match s.slots[k] with
            | none => List.replicate 22 (0 : Byte)
            | some st => enc8 st.phase.number ++ (1 :: enc8 st.fleet) ++ (1 :: encWord st.vp) ++
                (1 :: encWord st.serial) ++ (1 :: enc8 st.fold) ++ (1 :: enc8 st.pending) ++
                (1 :: enc16 st.tag.toNat) ++ encOption 1 (st.sealCause.map fun c => enc8 c.number))) ++
        enc8 (s.slots.toList.filter Option.isNone).length ++ enc8 s.harvestQueue.length ++
        s.harvestQueue.flatMap fun k : Fin Config.stackSlots => enc8 k ++ encWord ((s.slots[k].bind Stack.sealOrder).getD 0))))) ∧
  (∀ (s : State) (slot presence first count : Nat) (tag : Byte) (rest : List Frame),
    RecordRequest s 38 tag (enc8 slot ++ enc8 presence ++ enc16 first ++ enc16 count) rest →
    slot < 256 → presence < 256 → first < 65536 → count < 65536 →
    let inRange := 1 ≤ count ∧ count ≤ 256 ∧ first ≤ 1023
    (11 < slot ∨ 1 < presence ∨ presence = 1 ∧ ¬ inRange →
      exec .stackStatus s = .next (s.answerRecord rest (.reply tag 38 .badValue []))) ∧
    ∀ k : Fin Config.stackSlots, k.val = slot → presence = 0 ∨ presence = 1 ∧ inRange →
      (s.slots[k] = none → exec .stackStatus s = .next (s.answerRecord rest (.reply tag 38 .done [0]))) ∧
      ∀ st, s.slots[k] = some st → st.records.length = st.channels →
        let fields : List Byte := enc8 st.phase.number ++ enc8 st.fleet ++ encWord st.vp ++ encWord st.serial ++
          enc16 st.listen ++ enc8 st.interval ++ enc16 st.channels ++ enc8 st.fold ++ enc8 st.pending ++
          enc8 st.qcKept ++ encWord st.qcRejected ++ encWord st.dropped ++ encOption 4 (st.firstT0.map encWord) ++
          encOption 4 (st.lastT0.map encWord) ++ enc16 st.tag.toNat ++ enc8 (if st.corrSat then 1 else 0) ++
          encOption 1 (st.sealCause.map fun c => enc8 c.number) ++
          encOption 2 (st.lingerTimer.map fun t => enc16 t.length) ++ encOption 4 (st.sealOrder.map encWord) ++
          encOption 1 ((s.ports[k]).holder.map fun l => enc8 l) ++ enc8 (s.ports[k]).waiting.length ++
          encOption 1 ((placeOf k s.harvestQueue).map enc8)
        let n := min count (st.channels - first)
        let records : List Byte := (List.range n).flatMap fun i =>
          let r := st.records.getD (first + i)
            { acc := [], weightSum := 0, accepted := 0, edited := 0,
              causes := { dead := false, clip := false, burst := false } }
          enc16 (first + i) ++ enc32 r.weightSum ++ enc8 r.accepted ++ enc8 r.edited ++
            enc8 (bitSet [r.causes.dead, r.causes.clip, r.causes.burst])
        (presence = 0 → exec .stackStatus s = .next (s.answerRecord rest (.reply tag 38 .done fields))) ∧
          (presence = 1 → n < 256 →
            exec .stackStatus s = .next (s.answerRecord rest (.reply tag 38 .done (fields ++ enc8 n ++ records)))) ∧
          (presence = 1 → n = 256 → ∃ number : Byte,
            exec .stackStatus s = .next ({ s with freeCount := s.freeCount + 1 }.answerRecord rest
              (.reply tag 38 .done (fields ++ [number] ++ records))))) ∧
  (∀ (s : State) (tag : Byte) (rest : List Frame), RecordRequest s 44 tag [] rest →
    exec .deviceStatus s = .next (s.answerRecord rest (.reply tag 44 .done
      (enc16 s.ingest.channels ++ enc8 s.ingest.interval ++
        encOption 4 (s.ingest.origin.map fun o => encWord o.origin) ++
        encOption 4 (s.ingest.origin.map fun o => encWord o.expected) ++ encOption 4 (s.oldest.map encWord) ++
        encOption 4 (s.newest.map encWord) ++ enc32 s.ring.length ++ encWord s.ingest.discarded ++
        encWord s.ingest.gapRows ++ encWord s.ingest.staleRows ++ encWord s.ingest.dropouts ++
        enc8 s.sweeps.length ++ encWord s.sweepCounter ++ ([4] : List Byte) ++
        (List.finRange Config.lanes).flatMap (fun l : Fin Config.lanes =>
          match s.lanes[l] with
          | .idle => List.replicate 10 (0 : Byte)
          | .correlating j => [1] ++ (1 :: encWord j.sweep) ++ (1 :: enc8 j.slot) ++ [0, 0]
          | .mergeWait j _ => [2] ++ (1 :: encWord j.sweep) ++ (1 :: enc8 j.slot) ++
              encOption 1 ((placeOf l (s.ports[j.slot]).waiting).map enc8)
          | .merging j _ => [3] ++ (1 :: encWord j.sweep) ++ (1 :: enc8 j.slot) ++ [0, 0]) ++
        enc8 (s.slots.toList.filter Option.isNone).length ++ enc8 s.harvestQueue.length ++
        encWord s.stackSerials ++ encWord s.sealOrders ++ [s.alerts.pending, s.alerts.mask] ++ [3] ++
        enc8 (if s.spread.up then 0 else 1) ++ encWord s.spread.crcDiscards ++ encWord s.spread.overflows ++
        enc8 (if s.source.up then 0 else 1) ++ encWord s.source.crcDiscards ++ encWord s.source.overflows ++
        enc8 (if s.record.up then 0 else 1) ++ encWord s.record.crcDiscards ++ encWord s.record.overflows ++
        [s.source.sequence, s.record.sequence])))) ∧
  ∀ (s : State) (tag : Byte) (rest : List Frame), RecordRequest s 45 tag [] rest →
    exec .capabilityRead s = .next (s.answerRecord rest (.reply tag 45 .done
      (([4, 0, 1] : List Byte) ++ [0, 0, 4, 0] ++ [0, 0, 0, 8] ++ [0, 0, 0, 16] ++ [0, 0, 64, 0] ++ [0, 0, 32, 0] ++ [0, 0, 0, 4] ++
        [0, 0, 0, 12] ++ [0, 0, 0, 32] ++ [0, 1, 0, 0] ++ [0, 0, 0, 32])))

/-! ### Record reads -/

/-- A RECORD READ of a SEALED or HARVESTING slot sets the read in hand, OS clamped and the count clamped to the slot's
channels, and moves a SEALED slot to HARVESTING and out of the harvest queue; other reads are refused without effect
(R147, R148, R149). That the read in hand counts its REPLY as handed on and keeps its frame tag is the model's reading (log
entry 8). -/
def Obligations.RecordReadsAreAccepted : Prop :=
  ∀ (s : State) (slot first count mode shift width : Nat) (tag : Byte) (rest : List Frame),
    RecordRequest s 40 tag (enc8 slot ++ enc16 first ++ enc8 count ++ enc8 mode ++ enc8 shift ++ enc8 width) rest →
    slot < 256 → first < 65536 → count < 256 → mode < 256 → shift < 256 → width < 256 → s.harvestQueue.Nodup →
    let fits := mode ≤ 1 ∧ (width = 16 ∨ width = 24 ∨ width = 32) ∧ first ≤ 1023 ∧ 1 ≤ count ∧ count ≤ 64
    (11 < slot ∨ ¬ fits →
      exec .recordRead s = .next (s.answerRecord rest (.reply tag 40 .badValue (enc8 slot)))) ∧
    ∀ k : Fin Config.stackSlots, k.val = slot → fits →
      (s.slots[k] = none → exec .recordRead s = .next (s.answerRecord rest (.reply tag 40 .slotState [0]))) ∧
      ∀ st, s.slots[k] = some st →
        (st.isSealed = false → exec .recordRead s = .next (s.answerRecord rest
          (.reply tag 40 .slotState (enc8 st.phase.number ++ encWord st.serial ++ enc8 st.pending)))) ∧
        (let n := min count (st.channels - first)
         let reading : ReadInHand :=
           { slot := k, first := first, count := n, mode := if mode = 0 then .mean else .sum, shift := min 24 shift,
             width := if width = 16 then .w16 else if width = 24 then .w24 else .w32, handed := 1, tag := tag }
         let reply : Byte → Message := fun moved =>
           .reply tag 40 .done (enc8 k ++ encWord st.serial ++ [5] ++ enc8 n ++ [moved])
         (∀ cause order, st.phase = .sealed cause order → exec .recordRead s = .next
           { ({ s.setSlot k (some { st with phase := .harvesting cause }) with
              harvestQueue := s.harvestQueue.filter fun i => decide (i ≠ k) }.answerRecord rest (reply 1)) with
             reading := some reading }) ∧
         (∀ cause, st.phase = .harvesting cause → exec .recordRead s = .next
           { s.answerRecord rest (reply 0) with reading := some reading }))

/-- After the REPLY the Harvest Unit hands on the RECORD HEADER, then one TRACE per channel in channel order, each with the
read's frame tag; with the last of them the read in hand ends and the held ALERTs join the queue behind it. Nothing of
the stack changes. They are handed on one at a time, as the link sends them: while the output queue holds a message nothing
is handed on, and while a read is in hand no Record Link request is taken (R149, R150, R156, R157, R158, R166, R170, R171).
The model's choices: that the message before counts as sent when the queue is empty (log entry 7), the count of messages
handed on (log entry 8), samples and labels taken at the hand-over (log entry 9), and that a command whose event is not due
leaves the state (log entry 1). -/
def Obligations.ReadMessagesLeaveInOrder : Prop :=
  (∀ s : State, s.record.output ≠ [] → exec .recordHeader s = .next s ∧ exec .trace s = .next s) ∧
  (∀ (s : State) (c : Instr), s.reading ≠ none →
    c ∈ [Instr.setupStream, .channelSet, .channelRead, .fleetSet, .fleetRead, .stackList, .stackStatus, .stackSeal,
      .recordRead, .stackRelease, .alertMask, .alertAck, .deviceStatus, .capabilityRead, .deviceClear,
      .unknownKind .record] → exec c s = .next s) ∧
  ∀ (s : State) (r : ReadInHand) (st : Stack), s.record.up = true → s.record.output = [] → s.reading = some r →
    s.slots[r.slot] = some st →
    let handed : Message → State := fun m =>
      if r.handed + 1 = r.count + 2 then
        { s with
          record := { s.record with output := m :: s.heldAlerts }
          heldAlerts := [], reading := none }
      else
        { s with
          record := { s.record with output := [m] }
          reading := some { r with handed := r.handed + 1 } }
    (r.handed = 1 → exec .recordHeader s = .next (handed (.recordHeader r.tag
      { vp := st.vp, fleet := st.fleet, serial := st.serial, cause := st.sealCause, fold := st.fold,
        qcRejected := st.qcRejected, qcKept := st.qcKept, dropped := st.dropped, firstT0 := st.firstT0,
        lastT0 := st.lastT0, listen := st.listen, interval := st.interval, channels := st.channels,
        corrSat := st.corrSat, mode := r.mode, shift := r.shift, width := r.width, first := r.first,
        count := r.count }))) ∧
    ∀ (i : Nat) (c : ChannelStack) (entry : Channel), r.handed = i + 2 → i < r.count →
      st.records[r.first + i]? = some c → s.monitor.table.toList[r.first + i]? = some entry →
      exec .trace s = .next (handed (.trace r.tag
        (traceMessage r.mode r.shift r.width (r.first + i) entry.label c)))

/-! ### DEVICE CLEAR -/

/-- DEVICE CLEAR, taken in any state, empties the ring with origin NONE, the sweep table with one DROPPED_CLEAR result per
entry in table order, the lanes, merge ports, stack slots, harvest queue and pending causes; FILLING and COMMITTING
pilots go EMPTY, READY ones are kept, pins are 0; monitor state, levels and flags are cleared; settings, counters,
sequences, buffers and the mask set are kept, no cause is raised, and the reply is DONE (R23, R38, R57, R83, R120, R144,
R176, R186). -/
def Obligations.DeviceClearDiscardsWork : Prop :=
  ∀ (s : State) (tag : Byte) (rest : List Frame), RecordRequest s 46 tag [] rest →
    ∃ (monitor : Monitor) (pilots : Vector PilotSlot Config.pilots) (fleets : Vector Fleet Config.fleets)
      (lanes : Vector Lane Config.lanes) (slots : Vector (Option Stack) Config.stackSlots)
      (ports : Vector MergePort Config.stackSlots) (output : List Message),
      exec .deviceClear s = .next ({ s with
        ring := [], ingest := { s.ingest with origin := none }, monitor := monitor, pilots := pilots, fleets := fleets
        sweeps := [], lanes := lanes, slots := slots, ports := ports, harvestQueue := []
        alerts := { s.alerts with pending := 0 }
        source := { s.source with
          output := output, sequence := s.source.sequence + BitVec.ofNat 8 s.sweeps.length } }.answerRecord rest
            (.reply tag 46 .done [])) ∧
      (s.source.up = true → output = s.source.output ++
        resultMessages s.source.sequence (s.sweeps.map fun e => e.result .droppedClear none)) ∧
      (s.source.up = false → output = s.source.output) ∧
      monitor.origin = none ∧ monitor.position = 0 ∧
      (∀ i : Fin Config.channels, monitor.table[i] = { s.monitor.table[i] with
        intervalSum := 0, partialMark := false, lowRun := 0, monitor := .normal, lastLevel := 0
        latched := { deadSeen := false, noisySeen := false, clipSeen := false, dropoutSeen := false } }) ∧
      (∀ p : Fin Config.pilots, pilots[p] = { s.pilots[p] with
        phase := if (s.pilots[p]).phase.isReady then (s.pilots[p]).phase else .empty
        pins := 0 }) ∧
      (∀ fl : Fin Config.fleets, fleets[fl] = { s.fleets[fl] with lastT0 := none, openSlot := none }) ∧
      (∀ l : Fin Config.lanes, lanes[l] = .idle) ∧
      ∀ k : Fin Config.stackSlots, slots[k] = none ∧ ports[k] = { holder := none, waiting := [] }
end

