-- ==== Sys2Proof/Laws/State.lean ====
section
/-! SUPPORT. One lemma per field per update of the state: what each named update leaves as it stands, and what it
writes. -/

namespace Sys2Proof.Machine

/-! ### Writes of one table entry -/

@[simp] theorem State.setPilot_ingest (s : State) (p : Fin Config.pilots) (v : PilotSlot) : (s.setPilot p v).ingest = s.ingest := rfl
@[simp] theorem State.setPilot_ring (s : State) (p : Fin Config.pilots) (v : PilotSlot) : (s.setPilot p v).ring = s.ring := rfl
@[simp] theorem State.setPilot_monitor (s : State) (p : Fin Config.pilots) (v : PilotSlot) : (s.setPilot p v).monitor = s.monitor := rfl
@[simp] theorem State.setPilot_fleets (s : State) (p : Fin Config.pilots) (v : PilotSlot) : (s.setPilot p v).fleets = s.fleets := rfl
@[simp] theorem State.setPilot_sweeps (s : State) (p : Fin Config.pilots) (v : PilotSlot) : (s.setPilot p v).sweeps = s.sweeps := rfl
@[simp] theorem State.setPilot_sweepCounter (s : State) (p : Fin Config.pilots) (v : PilotSlot) : (s.setPilot p v).sweepCounter = s.sweepCounter := rfl
@[simp] theorem State.setPilot_lanes (s : State) (p : Fin Config.pilots) (v : PilotSlot) : (s.setPilot p v).lanes = s.lanes := rfl
@[simp] theorem State.setPilot_slots (s : State) (p : Fin Config.pilots) (v : PilotSlot) : (s.setPilot p v).slots = s.slots := rfl
@[simp] theorem State.setPilot_ports (s : State) (p : Fin Config.pilots) (v : PilotSlot) : (s.setPilot p v).ports = s.ports := rfl
@[simp] theorem State.setPilot_harvestQueue (s : State) (p : Fin Config.pilots) (v : PilotSlot) : (s.setPilot p v).harvestQueue = s.harvestQueue := rfl
@[simp] theorem State.setPilot_stackSerials (s : State) (p : Fin Config.pilots) (v : PilotSlot) : (s.setPilot p v).stackSerials = s.stackSerials := rfl
@[simp] theorem State.setPilot_sealOrders (s : State) (p : Fin Config.pilots) (v : PilotSlot) : (s.setPilot p v).sealOrders = s.sealOrders := rfl
@[simp] theorem State.setPilot_reading (s : State) (p : Fin Config.pilots) (v : PilotSlot) : (s.setPilot p v).reading = s.reading := rfl
@[simp] theorem State.setPilot_alerts (s : State) (p : Fin Config.pilots) (v : PilotSlot) : (s.setPilot p v).alerts = s.alerts := rfl
@[simp] theorem State.setPilot_spread (s : State) (p : Fin Config.pilots) (v : PilotSlot) : (s.setPilot p v).spread = s.spread := rfl
@[simp] theorem State.setPilot_source (s : State) (p : Fin Config.pilots) (v : PilotSlot) : (s.setPilot p v).source = s.source := rfl
@[simp] theorem State.setPilot_record (s : State) (p : Fin Config.pilots) (v : PilotSlot) : (s.setPilot p v).record = s.record := rfl
@[simp] theorem State.setPilot_heldAlerts (s : State) (p : Fin Config.pilots) (v : PilotSlot) : (s.setPilot p v).heldAlerts = s.heldAlerts := rfl
@[simp] theorem State.setPilot_clock (s : State) (p : Fin Config.pilots) (v : PilotSlot) : (s.setPilot p v).clock = s.clock := rfl
@[simp] theorem State.setPilot_freeCount (s : State) (p : Fin Config.pilots) (v : PilotSlot) : (s.setPilot p v).freeCount = s.freeCount := rfl
@[simp] theorem State.setPilot_pending (s : State) (p : Fin Config.pilots) (v : PilotSlot) : (s.setPilot p v).pending = s.pending := rfl
@[simp] theorem State.setPilot_pilots (s : State) (p : Fin Config.pilots) (v : PilotSlot) : (s.setPilot p v).pilots = s.pilots.set p v := rfl

@[simp] theorem State.setFleet_ingest (s : State) (p : Fin Config.fleets) (v : Fleet) : (s.setFleet p v).ingest = s.ingest := rfl
@[simp] theorem State.setFleet_ring (s : State) (p : Fin Config.fleets) (v : Fleet) : (s.setFleet p v).ring = s.ring := rfl
@[simp] theorem State.setFleet_monitor (s : State) (p : Fin Config.fleets) (v : Fleet) : (s.setFleet p v).monitor = s.monitor := rfl
@[simp] theorem State.setFleet_pilots (s : State) (p : Fin Config.fleets) (v : Fleet) : (s.setFleet p v).pilots = s.pilots := rfl
@[simp] theorem State.setFleet_sweeps (s : State) (p : Fin Config.fleets) (v : Fleet) : (s.setFleet p v).sweeps = s.sweeps := rfl
@[simp] theorem State.setFleet_sweepCounter (s : State) (p : Fin Config.fleets) (v : Fleet) : (s.setFleet p v).sweepCounter = s.sweepCounter := rfl
@[simp] theorem State.setFleet_lanes (s : State) (p : Fin Config.fleets) (v : Fleet) : (s.setFleet p v).lanes = s.lanes := rfl
@[simp] theorem State.setFleet_slots (s : State) (p : Fin Config.fleets) (v : Fleet) : (s.setFleet p v).slots = s.slots := rfl
@[simp] theorem State.setFleet_ports (s : State) (p : Fin Config.fleets) (v : Fleet) : (s.setFleet p v).ports = s.ports := rfl
@[simp] theorem State.setFleet_harvestQueue (s : State) (p : Fin Config.fleets) (v : Fleet) : (s.setFleet p v).harvestQueue = s.harvestQueue := rfl
@[simp] theorem State.setFleet_stackSerials (s : State) (p : Fin Config.fleets) (v : Fleet) : (s.setFleet p v).stackSerials = s.stackSerials := rfl
@[simp] theorem State.setFleet_sealOrders (s : State) (p : Fin Config.fleets) (v : Fleet) : (s.setFleet p v).sealOrders = s.sealOrders := rfl
@[simp] theorem State.setFleet_reading (s : State) (p : Fin Config.fleets) (v : Fleet) : (s.setFleet p v).reading = s.reading := rfl
@[simp] theorem State.setFleet_alerts (s : State) (p : Fin Config.fleets) (v : Fleet) : (s.setFleet p v).alerts = s.alerts := rfl
@[simp] theorem State.setFleet_spread (s : State) (p : Fin Config.fleets) (v : Fleet) : (s.setFleet p v).spread = s.spread := rfl
@[simp] theorem State.setFleet_source (s : State) (p : Fin Config.fleets) (v : Fleet) : (s.setFleet p v).source = s.source := rfl
@[simp] theorem State.setFleet_record (s : State) (p : Fin Config.fleets) (v : Fleet) : (s.setFleet p v).record = s.record := rfl
@[simp] theorem State.setFleet_heldAlerts (s : State) (p : Fin Config.fleets) (v : Fleet) : (s.setFleet p v).heldAlerts = s.heldAlerts := rfl
@[simp] theorem State.setFleet_clock (s : State) (p : Fin Config.fleets) (v : Fleet) : (s.setFleet p v).clock = s.clock := rfl
@[simp] theorem State.setFleet_freeCount (s : State) (p : Fin Config.fleets) (v : Fleet) : (s.setFleet p v).freeCount = s.freeCount := rfl
@[simp] theorem State.setFleet_pending (s : State) (p : Fin Config.fleets) (v : Fleet) : (s.setFleet p v).pending = s.pending := rfl
@[simp] theorem State.setFleet_fleets (s : State) (p : Fin Config.fleets) (v : Fleet) : (s.setFleet p v).fleets = s.fleets.set p v := rfl

@[simp] theorem State.setLane_ingest (s : State) (p : Fin Config.lanes) (v : Lane) : (s.setLane p v).ingest = s.ingest := rfl
@[simp] theorem State.setLane_ring (s : State) (p : Fin Config.lanes) (v : Lane) : (s.setLane p v).ring = s.ring := rfl
@[simp] theorem State.setLane_monitor (s : State) (p : Fin Config.lanes) (v : Lane) : (s.setLane p v).monitor = s.monitor := rfl
@[simp] theorem State.setLane_pilots (s : State) (p : Fin Config.lanes) (v : Lane) : (s.setLane p v).pilots = s.pilots := rfl
@[simp] theorem State.setLane_fleets (s : State) (p : Fin Config.lanes) (v : Lane) : (s.setLane p v).fleets = s.fleets := rfl
@[simp] theorem State.setLane_sweeps (s : State) (p : Fin Config.lanes) (v : Lane) : (s.setLane p v).sweeps = s.sweeps := rfl
@[simp] theorem State.setLane_sweepCounter (s : State) (p : Fin Config.lanes) (v : Lane) : (s.setLane p v).sweepCounter = s.sweepCounter := rfl
@[simp] theorem State.setLane_slots (s : State) (p : Fin Config.lanes) (v : Lane) : (s.setLane p v).slots = s.slots := rfl
@[simp] theorem State.setLane_ports (s : State) (p : Fin Config.lanes) (v : Lane) : (s.setLane p v).ports = s.ports := rfl
@[simp] theorem State.setLane_harvestQueue (s : State) (p : Fin Config.lanes) (v : Lane) : (s.setLane p v).harvestQueue = s.harvestQueue := rfl
@[simp] theorem State.setLane_stackSerials (s : State) (p : Fin Config.lanes) (v : Lane) : (s.setLane p v).stackSerials = s.stackSerials := rfl
@[simp] theorem State.setLane_sealOrders (s : State) (p : Fin Config.lanes) (v : Lane) : (s.setLane p v).sealOrders = s.sealOrders := rfl
@[simp] theorem State.setLane_reading (s : State) (p : Fin Config.lanes) (v : Lane) : (s.setLane p v).reading = s.reading := rfl
@[simp] theorem State.setLane_alerts (s : State) (p : Fin Config.lanes) (v : Lane) : (s.setLane p v).alerts = s.alerts := rfl
@[simp] theorem State.setLane_spread (s : State) (p : Fin Config.lanes) (v : Lane) : (s.setLane p v).spread = s.spread := rfl
@[simp] theorem State.setLane_source (s : State) (p : Fin Config.lanes) (v : Lane) : (s.setLane p v).source = s.source := rfl
@[simp] theorem State.setLane_record (s : State) (p : Fin Config.lanes) (v : Lane) : (s.setLane p v).record = s.record := rfl
@[simp] theorem State.setLane_heldAlerts (s : State) (p : Fin Config.lanes) (v : Lane) : (s.setLane p v).heldAlerts = s.heldAlerts := rfl
@[simp] theorem State.setLane_clock (s : State) (p : Fin Config.lanes) (v : Lane) : (s.setLane p v).clock = s.clock := rfl
@[simp] theorem State.setLane_freeCount (s : State) (p : Fin Config.lanes) (v : Lane) : (s.setLane p v).freeCount = s.freeCount := rfl
@[simp] theorem State.setLane_pending (s : State) (p : Fin Config.lanes) (v : Lane) : (s.setLane p v).pending = s.pending := rfl
@[simp] theorem State.setLane_lanes (s : State) (p : Fin Config.lanes) (v : Lane) : (s.setLane p v).lanes = s.lanes.set p v := rfl

@[simp] theorem State.setSlot_ingest (s : State) (p : Fin Config.stackSlots) (v : Option Stack) : (s.setSlot p v).ingest = s.ingest := rfl
@[simp] theorem State.setSlot_ring (s : State) (p : Fin Config.stackSlots) (v : Option Stack) : (s.setSlot p v).ring = s.ring := rfl
@[simp] theorem State.setSlot_monitor (s : State) (p : Fin Config.stackSlots) (v : Option Stack) : (s.setSlot p v).monitor = s.monitor := rfl
@[simp] theorem State.setSlot_pilots (s : State) (p : Fin Config.stackSlots) (v : Option Stack) : (s.setSlot p v).pilots = s.pilots := rfl
@[simp] theorem State.setSlot_fleets (s : State) (p : Fin Config.stackSlots) (v : Option Stack) : (s.setSlot p v).fleets = s.fleets := rfl
@[simp] theorem State.setSlot_sweeps (s : State) (p : Fin Config.stackSlots) (v : Option Stack) : (s.setSlot p v).sweeps = s.sweeps := rfl
@[simp] theorem State.setSlot_sweepCounter (s : State) (p : Fin Config.stackSlots) (v : Option Stack) : (s.setSlot p v).sweepCounter = s.sweepCounter := rfl
@[simp] theorem State.setSlot_lanes (s : State) (p : Fin Config.stackSlots) (v : Option Stack) : (s.setSlot p v).lanes = s.lanes := rfl
@[simp] theorem State.setSlot_ports (s : State) (p : Fin Config.stackSlots) (v : Option Stack) : (s.setSlot p v).ports = s.ports := rfl
@[simp] theorem State.setSlot_harvestQueue (s : State) (p : Fin Config.stackSlots) (v : Option Stack) : (s.setSlot p v).harvestQueue = s.harvestQueue := rfl
@[simp] theorem State.setSlot_stackSerials (s : State) (p : Fin Config.stackSlots) (v : Option Stack) : (s.setSlot p v).stackSerials = s.stackSerials := rfl
@[simp] theorem State.setSlot_sealOrders (s : State) (p : Fin Config.stackSlots) (v : Option Stack) : (s.setSlot p v).sealOrders = s.sealOrders := rfl
@[simp] theorem State.setSlot_reading (s : State) (p : Fin Config.stackSlots) (v : Option Stack) : (s.setSlot p v).reading = s.reading := rfl
@[simp] theorem State.setSlot_alerts (s : State) (p : Fin Config.stackSlots) (v : Option Stack) : (s.setSlot p v).alerts = s.alerts := rfl
@[simp] theorem State.setSlot_spread (s : State) (p : Fin Config.stackSlots) (v : Option Stack) : (s.setSlot p v).spread = s.spread := rfl
@[simp] theorem State.setSlot_source (s : State) (p : Fin Config.stackSlots) (v : Option Stack) : (s.setSlot p v).source = s.source := rfl
@[simp] theorem State.setSlot_record (s : State) (p : Fin Config.stackSlots) (v : Option Stack) : (s.setSlot p v).record = s.record := rfl
@[simp] theorem State.setSlot_heldAlerts (s : State) (p : Fin Config.stackSlots) (v : Option Stack) : (s.setSlot p v).heldAlerts = s.heldAlerts := rfl
@[simp] theorem State.setSlot_clock (s : State) (p : Fin Config.stackSlots) (v : Option Stack) : (s.setSlot p v).clock = s.clock := rfl
@[simp] theorem State.setSlot_freeCount (s : State) (p : Fin Config.stackSlots) (v : Option Stack) : (s.setSlot p v).freeCount = s.freeCount := rfl
@[simp] theorem State.setSlot_pending (s : State) (p : Fin Config.stackSlots) (v : Option Stack) : (s.setSlot p v).pending = s.pending := rfl
@[simp] theorem State.setSlot_slots (s : State) (p : Fin Config.stackSlots) (v : Option Stack) : (s.setSlot p v).slots = s.slots.set p v := rfl

@[simp] theorem State.setPort_ingest (s : State) (p : Fin Config.stackSlots) (v : MergePort) : (s.setPort p v).ingest = s.ingest := rfl
@[simp] theorem State.setPort_ring (s : State) (p : Fin Config.stackSlots) (v : MergePort) : (s.setPort p v).ring = s.ring := rfl
@[simp] theorem State.setPort_monitor (s : State) (p : Fin Config.stackSlots) (v : MergePort) : (s.setPort p v).monitor = s.monitor := rfl
@[simp] theorem State.setPort_pilots (s : State) (p : Fin Config.stackSlots) (v : MergePort) : (s.setPort p v).pilots = s.pilots := rfl
@[simp] theorem State.setPort_fleets (s : State) (p : Fin Config.stackSlots) (v : MergePort) : (s.setPort p v).fleets = s.fleets := rfl
@[simp] theorem State.setPort_sweeps (s : State) (p : Fin Config.stackSlots) (v : MergePort) : (s.setPort p v).sweeps = s.sweeps := rfl
@[simp] theorem State.setPort_sweepCounter (s : State) (p : Fin Config.stackSlots) (v : MergePort) : (s.setPort p v).sweepCounter = s.sweepCounter := rfl
@[simp] theorem State.setPort_lanes (s : State) (p : Fin Config.stackSlots) (v : MergePort) : (s.setPort p v).lanes = s.lanes := rfl
@[simp] theorem State.setPort_slots (s : State) (p : Fin Config.stackSlots) (v : MergePort) : (s.setPort p v).slots = s.slots := rfl
@[simp] theorem State.setPort_harvestQueue (s : State) (p : Fin Config.stackSlots) (v : MergePort) : (s.setPort p v).harvestQueue = s.harvestQueue := rfl
@[simp] theorem State.setPort_stackSerials (s : State) (p : Fin Config.stackSlots) (v : MergePort) : (s.setPort p v).stackSerials = s.stackSerials := rfl
@[simp] theorem State.setPort_sealOrders (s : State) (p : Fin Config.stackSlots) (v : MergePort) : (s.setPort p v).sealOrders = s.sealOrders := rfl
@[simp] theorem State.setPort_reading (s : State) (p : Fin Config.stackSlots) (v : MergePort) : (s.setPort p v).reading = s.reading := rfl
@[simp] theorem State.setPort_alerts (s : State) (p : Fin Config.stackSlots) (v : MergePort) : (s.setPort p v).alerts = s.alerts := rfl
@[simp] theorem State.setPort_spread (s : State) (p : Fin Config.stackSlots) (v : MergePort) : (s.setPort p v).spread = s.spread := rfl
@[simp] theorem State.setPort_source (s : State) (p : Fin Config.stackSlots) (v : MergePort) : (s.setPort p v).source = s.source := rfl
@[simp] theorem State.setPort_record (s : State) (p : Fin Config.stackSlots) (v : MergePort) : (s.setPort p v).record = s.record := rfl
@[simp] theorem State.setPort_heldAlerts (s : State) (p : Fin Config.stackSlots) (v : MergePort) : (s.setPort p v).heldAlerts = s.heldAlerts := rfl
@[simp] theorem State.setPort_clock (s : State) (p : Fin Config.stackSlots) (v : MergePort) : (s.setPort p v).clock = s.clock := rfl
@[simp] theorem State.setPort_freeCount (s : State) (p : Fin Config.stackSlots) (v : MergePort) : (s.setPort p v).freeCount = s.freeCount := rfl
@[simp] theorem State.setPort_pending (s : State) (p : Fin Config.stackSlots) (v : MergePort) : (s.setPort p v).pending = s.pending := rfl
@[simp] theorem State.setPort_ports (s : State) (p : Fin Config.stackSlots) (v : MergePort) : (s.setPort p v).ports = s.ports.set p v := rfl

/-! ### Composite writes -/

@[simp] theorem State.pinPilot_ingest (s : State) (p : Fin Config.pilots) : (s.pinPilot p).ingest = s.ingest := rfl
@[simp] theorem State.pinPilot_ring (s : State) (p : Fin Config.pilots) : (s.pinPilot p).ring = s.ring := rfl
@[simp] theorem State.pinPilot_monitor (s : State) (p : Fin Config.pilots) : (s.pinPilot p).monitor = s.monitor := rfl
@[simp] theorem State.pinPilot_fleets (s : State) (p : Fin Config.pilots) : (s.pinPilot p).fleets = s.fleets := rfl
@[simp] theorem State.pinPilot_sweeps (s : State) (p : Fin Config.pilots) : (s.pinPilot p).sweeps = s.sweeps := rfl
@[simp] theorem State.pinPilot_sweepCounter (s : State) (p : Fin Config.pilots) : (s.pinPilot p).sweepCounter = s.sweepCounter := rfl
@[simp] theorem State.pinPilot_lanes (s : State) (p : Fin Config.pilots) : (s.pinPilot p).lanes = s.lanes := rfl
@[simp] theorem State.pinPilot_slots (s : State) (p : Fin Config.pilots) : (s.pinPilot p).slots = s.slots := rfl
@[simp] theorem State.pinPilot_ports (s : State) (p : Fin Config.pilots) : (s.pinPilot p).ports = s.ports := rfl
@[simp] theorem State.pinPilot_harvestQueue (s : State) (p : Fin Config.pilots) : (s.pinPilot p).harvestQueue = s.harvestQueue := rfl
@[simp] theorem State.pinPilot_stackSerials (s : State) (p : Fin Config.pilots) : (s.pinPilot p).stackSerials = s.stackSerials := rfl
@[simp] theorem State.pinPilot_sealOrders (s : State) (p : Fin Config.pilots) : (s.pinPilot p).sealOrders = s.sealOrders := rfl
@[simp] theorem State.pinPilot_reading (s : State) (p : Fin Config.pilots) : (s.pinPilot p).reading = s.reading := rfl
@[simp] theorem State.pinPilot_alerts (s : State) (p : Fin Config.pilots) : (s.pinPilot p).alerts = s.alerts := rfl
@[simp] theorem State.pinPilot_spread (s : State) (p : Fin Config.pilots) : (s.pinPilot p).spread = s.spread := rfl
@[simp] theorem State.pinPilot_source (s : State) (p : Fin Config.pilots) : (s.pinPilot p).source = s.source := rfl
@[simp] theorem State.pinPilot_record (s : State) (p : Fin Config.pilots) : (s.pinPilot p).record = s.record := rfl
@[simp] theorem State.pinPilot_heldAlerts (s : State) (p : Fin Config.pilots) : (s.pinPilot p).heldAlerts = s.heldAlerts := rfl
@[simp] theorem State.pinPilot_clock (s : State) (p : Fin Config.pilots) : (s.pinPilot p).clock = s.clock := rfl
@[simp] theorem State.pinPilot_freeCount (s : State) (p : Fin Config.pilots) : (s.pinPilot p).freeCount = s.freeCount := rfl
@[simp] theorem State.pinPilot_pending (s : State) (p : Fin Config.pilots) : (s.pinPilot p).pending = s.pending := rfl

@[simp] theorem State.unpinPilot_ingest (s : State) (p : Fin Config.pilots) : (s.unpinPilot p).ingest = s.ingest := rfl
@[simp] theorem State.unpinPilot_ring (s : State) (p : Fin Config.pilots) : (s.unpinPilot p).ring = s.ring := rfl
@[simp] theorem State.unpinPilot_monitor (s : State) (p : Fin Config.pilots) : (s.unpinPilot p).monitor = s.monitor := rfl
@[simp] theorem State.unpinPilot_fleets (s : State) (p : Fin Config.pilots) : (s.unpinPilot p).fleets = s.fleets := rfl
@[simp] theorem State.unpinPilot_sweeps (s : State) (p : Fin Config.pilots) : (s.unpinPilot p).sweeps = s.sweeps := rfl
@[simp] theorem State.unpinPilot_sweepCounter (s : State) (p : Fin Config.pilots) : (s.unpinPilot p).sweepCounter = s.sweepCounter := rfl
@[simp] theorem State.unpinPilot_lanes (s : State) (p : Fin Config.pilots) : (s.unpinPilot p).lanes = s.lanes := rfl
@[simp] theorem State.unpinPilot_slots (s : State) (p : Fin Config.pilots) : (s.unpinPilot p).slots = s.slots := rfl
@[simp] theorem State.unpinPilot_ports (s : State) (p : Fin Config.pilots) : (s.unpinPilot p).ports = s.ports := rfl
@[simp] theorem State.unpinPilot_harvestQueue (s : State) (p : Fin Config.pilots) : (s.unpinPilot p).harvestQueue = s.harvestQueue := rfl
@[simp] theorem State.unpinPilot_stackSerials (s : State) (p : Fin Config.pilots) : (s.unpinPilot p).stackSerials = s.stackSerials := rfl
@[simp] theorem State.unpinPilot_sealOrders (s : State) (p : Fin Config.pilots) : (s.unpinPilot p).sealOrders = s.sealOrders := rfl
@[simp] theorem State.unpinPilot_reading (s : State) (p : Fin Config.pilots) : (s.unpinPilot p).reading = s.reading := rfl
@[simp] theorem State.unpinPilot_alerts (s : State) (p : Fin Config.pilots) : (s.unpinPilot p).alerts = s.alerts := rfl
@[simp] theorem State.unpinPilot_spread (s : State) (p : Fin Config.pilots) : (s.unpinPilot p).spread = s.spread := rfl
@[simp] theorem State.unpinPilot_source (s : State) (p : Fin Config.pilots) : (s.unpinPilot p).source = s.source := rfl
@[simp] theorem State.unpinPilot_record (s : State) (p : Fin Config.pilots) : (s.unpinPilot p).record = s.record := rfl
@[simp] theorem State.unpinPilot_heldAlerts (s : State) (p : Fin Config.pilots) : (s.unpinPilot p).heldAlerts = s.heldAlerts := rfl
@[simp] theorem State.unpinPilot_clock (s : State) (p : Fin Config.pilots) : (s.unpinPilot p).clock = s.clock := rfl
@[simp] theorem State.unpinPilot_freeCount (s : State) (p : Fin Config.pilots) : (s.unpinPilot p).freeCount = s.freeCount := rfl
@[simp] theorem State.unpinPilot_pending (s : State) (p : Fin Config.pilots) : (s.unpinPilot p).pending = s.pending := rfl

@[simp] theorem State.clearOpenSlot_ingest (s : State) (fl : Fin Config.fleets) : (s.clearOpenSlot fl).ingest = s.ingest := rfl
@[simp] theorem State.clearOpenSlot_ring (s : State) (fl : Fin Config.fleets) : (s.clearOpenSlot fl).ring = s.ring := rfl
@[simp] theorem State.clearOpenSlot_monitor (s : State) (fl : Fin Config.fleets) : (s.clearOpenSlot fl).monitor = s.monitor := rfl
@[simp] theorem State.clearOpenSlot_pilots (s : State) (fl : Fin Config.fleets) : (s.clearOpenSlot fl).pilots = s.pilots := rfl
@[simp] theorem State.clearOpenSlot_sweeps (s : State) (fl : Fin Config.fleets) : (s.clearOpenSlot fl).sweeps = s.sweeps := rfl
@[simp] theorem State.clearOpenSlot_sweepCounter (s : State) (fl : Fin Config.fleets) : (s.clearOpenSlot fl).sweepCounter = s.sweepCounter := rfl
@[simp] theorem State.clearOpenSlot_lanes (s : State) (fl : Fin Config.fleets) : (s.clearOpenSlot fl).lanes = s.lanes := rfl
@[simp] theorem State.clearOpenSlot_slots (s : State) (fl : Fin Config.fleets) : (s.clearOpenSlot fl).slots = s.slots := rfl
@[simp] theorem State.clearOpenSlot_ports (s : State) (fl : Fin Config.fleets) : (s.clearOpenSlot fl).ports = s.ports := rfl
@[simp] theorem State.clearOpenSlot_harvestQueue (s : State) (fl : Fin Config.fleets) : (s.clearOpenSlot fl).harvestQueue = s.harvestQueue := rfl
@[simp] theorem State.clearOpenSlot_stackSerials (s : State) (fl : Fin Config.fleets) : (s.clearOpenSlot fl).stackSerials = s.stackSerials := rfl
@[simp] theorem State.clearOpenSlot_sealOrders (s : State) (fl : Fin Config.fleets) : (s.clearOpenSlot fl).sealOrders = s.sealOrders := rfl
@[simp] theorem State.clearOpenSlot_reading (s : State) (fl : Fin Config.fleets) : (s.clearOpenSlot fl).reading = s.reading := rfl
@[simp] theorem State.clearOpenSlot_alerts (s : State) (fl : Fin Config.fleets) : (s.clearOpenSlot fl).alerts = s.alerts := rfl
@[simp] theorem State.clearOpenSlot_spread (s : State) (fl : Fin Config.fleets) : (s.clearOpenSlot fl).spread = s.spread := rfl
@[simp] theorem State.clearOpenSlot_source (s : State) (fl : Fin Config.fleets) : (s.clearOpenSlot fl).source = s.source := rfl
@[simp] theorem State.clearOpenSlot_record (s : State) (fl : Fin Config.fleets) : (s.clearOpenSlot fl).record = s.record := rfl
@[simp] theorem State.clearOpenSlot_heldAlerts (s : State) (fl : Fin Config.fleets) : (s.clearOpenSlot fl).heldAlerts = s.heldAlerts := rfl
@[simp] theorem State.clearOpenSlot_clock (s : State) (fl : Fin Config.fleets) : (s.clearOpenSlot fl).clock = s.clock := rfl
@[simp] theorem State.clearOpenSlot_freeCount (s : State) (fl : Fin Config.fleets) : (s.clearOpenSlot fl).freeCount = s.freeCount := rfl
@[simp] theorem State.clearOpenSlot_pending (s : State) (fl : Fin Config.fleets) : (s.clearOpenSlot fl).pending = s.pending := rfl

@[simp] theorem State.openSlot_ingest (s : State) (k : Fin Config.stackSlots) (fl : Fin Config.fleets) (vp : Word32) : (s.openSlot k fl vp).ingest = s.ingest := rfl
@[simp] theorem State.openSlot_ring (s : State) (k : Fin Config.stackSlots) (fl : Fin Config.fleets) (vp : Word32) : (s.openSlot k fl vp).ring = s.ring := rfl
@[simp] theorem State.openSlot_monitor (s : State) (k : Fin Config.stackSlots) (fl : Fin Config.fleets) (vp : Word32) : (s.openSlot k fl vp).monitor = s.monitor := rfl
@[simp] theorem State.openSlot_pilots (s : State) (k : Fin Config.stackSlots) (fl : Fin Config.fleets) (vp : Word32) : (s.openSlot k fl vp).pilots = s.pilots := rfl
@[simp] theorem State.openSlot_sweeps (s : State) (k : Fin Config.stackSlots) (fl : Fin Config.fleets) (vp : Word32) : (s.openSlot k fl vp).sweeps = s.sweeps := rfl
@[simp] theorem State.openSlot_sweepCounter (s : State) (k : Fin Config.stackSlots) (fl : Fin Config.fleets) (vp : Word32) : (s.openSlot k fl vp).sweepCounter = s.sweepCounter := rfl
@[simp] theorem State.openSlot_lanes (s : State) (k : Fin Config.stackSlots) (fl : Fin Config.fleets) (vp : Word32) : (s.openSlot k fl vp).lanes = s.lanes := rfl
@[simp] theorem State.openSlot_ports (s : State) (k : Fin Config.stackSlots) (fl : Fin Config.fleets) (vp : Word32) : (s.openSlot k fl vp).ports = s.ports := rfl
@[simp] theorem State.openSlot_harvestQueue (s : State) (k : Fin Config.stackSlots) (fl : Fin Config.fleets) (vp : Word32) : (s.openSlot k fl vp).harvestQueue = s.harvestQueue := rfl
@[simp] theorem State.openSlot_sealOrders (s : State) (k : Fin Config.stackSlots) (fl : Fin Config.fleets) (vp : Word32) : (s.openSlot k fl vp).sealOrders = s.sealOrders := rfl
@[simp] theorem State.openSlot_reading (s : State) (k : Fin Config.stackSlots) (fl : Fin Config.fleets) (vp : Word32) : (s.openSlot k fl vp).reading = s.reading := rfl
@[simp] theorem State.openSlot_alerts (s : State) (k : Fin Config.stackSlots) (fl : Fin Config.fleets) (vp : Word32) : (s.openSlot k fl vp).alerts = s.alerts := rfl
@[simp] theorem State.openSlot_spread (s : State) (k : Fin Config.stackSlots) (fl : Fin Config.fleets) (vp : Word32) : (s.openSlot k fl vp).spread = s.spread := rfl
@[simp] theorem State.openSlot_source (s : State) (k : Fin Config.stackSlots) (fl : Fin Config.fleets) (vp : Word32) : (s.openSlot k fl vp).source = s.source := rfl
@[simp] theorem State.openSlot_record (s : State) (k : Fin Config.stackSlots) (fl : Fin Config.fleets) (vp : Word32) : (s.openSlot k fl vp).record = s.record := rfl
@[simp] theorem State.openSlot_heldAlerts (s : State) (k : Fin Config.stackSlots) (fl : Fin Config.fleets) (vp : Word32) : (s.openSlot k fl vp).heldAlerts = s.heldAlerts := rfl
@[simp] theorem State.openSlot_clock (s : State) (k : Fin Config.stackSlots) (fl : Fin Config.fleets) (vp : Word32) : (s.openSlot k fl vp).clock = s.clock := rfl
@[simp] theorem State.openSlot_freeCount (s : State) (k : Fin Config.stackSlots) (fl : Fin Config.fleets) (vp : Word32) : (s.openSlot k fl vp).freeCount = s.freeCount := rfl
@[simp] theorem State.openSlot_pending (s : State) (k : Fin Config.stackSlots) (fl : Fin Config.fleets) (vp : Word32) : (s.openSlot k fl vp).pending = s.pending := rfl

@[simp] theorem State.joinSlot_ingest (s : State) (k : Fin Config.stackSlots) (st : Stack) : (s.joinSlot k st).ingest = s.ingest := rfl
@[simp] theorem State.joinSlot_ring (s : State) (k : Fin Config.stackSlots) (st : Stack) : (s.joinSlot k st).ring = s.ring := rfl
@[simp] theorem State.joinSlot_monitor (s : State) (k : Fin Config.stackSlots) (st : Stack) : (s.joinSlot k st).monitor = s.monitor := rfl
@[simp] theorem State.joinSlot_pilots (s : State) (k : Fin Config.stackSlots) (st : Stack) : (s.joinSlot k st).pilots = s.pilots := rfl
@[simp] theorem State.joinSlot_fleets (s : State) (k : Fin Config.stackSlots) (st : Stack) : (s.joinSlot k st).fleets = s.fleets := rfl
@[simp] theorem State.joinSlot_sweeps (s : State) (k : Fin Config.stackSlots) (st : Stack) : (s.joinSlot k st).sweeps = s.sweeps := rfl
@[simp] theorem State.joinSlot_sweepCounter (s : State) (k : Fin Config.stackSlots) (st : Stack) : (s.joinSlot k st).sweepCounter = s.sweepCounter := rfl
@[simp] theorem State.joinSlot_lanes (s : State) (k : Fin Config.stackSlots) (st : Stack) : (s.joinSlot k st).lanes = s.lanes := rfl
@[simp] theorem State.joinSlot_ports (s : State) (k : Fin Config.stackSlots) (st : Stack) : (s.joinSlot k st).ports = s.ports := rfl
@[simp] theorem State.joinSlot_harvestQueue (s : State) (k : Fin Config.stackSlots) (st : Stack) : (s.joinSlot k st).harvestQueue = s.harvestQueue := rfl
@[simp] theorem State.joinSlot_stackSerials (s : State) (k : Fin Config.stackSlots) (st : Stack) : (s.joinSlot k st).stackSerials = s.stackSerials := rfl
@[simp] theorem State.joinSlot_sealOrders (s : State) (k : Fin Config.stackSlots) (st : Stack) : (s.joinSlot k st).sealOrders = s.sealOrders := rfl
@[simp] theorem State.joinSlot_reading (s : State) (k : Fin Config.stackSlots) (st : Stack) : (s.joinSlot k st).reading = s.reading := rfl
@[simp] theorem State.joinSlot_alerts (s : State) (k : Fin Config.stackSlots) (st : Stack) : (s.joinSlot k st).alerts = s.alerts := rfl
@[simp] theorem State.joinSlot_spread (s : State) (k : Fin Config.stackSlots) (st : Stack) : (s.joinSlot k st).spread = s.spread := rfl
@[simp] theorem State.joinSlot_source (s : State) (k : Fin Config.stackSlots) (st : Stack) : (s.joinSlot k st).source = s.source := rfl
@[simp] theorem State.joinSlot_record (s : State) (k : Fin Config.stackSlots) (st : Stack) : (s.joinSlot k st).record = s.record := rfl
@[simp] theorem State.joinSlot_heldAlerts (s : State) (k : Fin Config.stackSlots) (st : Stack) : (s.joinSlot k st).heldAlerts = s.heldAlerts := rfl
@[simp] theorem State.joinSlot_clock (s : State) (k : Fin Config.stackSlots) (st : Stack) : (s.joinSlot k st).clock = s.clock := rfl
@[simp] theorem State.joinSlot_freeCount (s : State) (k : Fin Config.stackSlots) (st : Stack) : (s.joinSlot k st).freeCount = s.freeCount := rfl
@[simp] theorem State.joinSlot_pending (s : State) (k : Fin Config.stackSlots) (st : Stack) : (s.joinSlot k st).pending = s.pending := rfl


@[simp] theorem State.updateSweep_ingest (s : State) (n : Word32) (f : SweepEntry → SweepEntry) : (s.updateSweep n f).ingest = s.ingest := rfl
@[simp] theorem State.updateSweep_ring (s : State) (n : Word32) (f : SweepEntry → SweepEntry) : (s.updateSweep n f).ring = s.ring := rfl
@[simp] theorem State.updateSweep_monitor (s : State) (n : Word32) (f : SweepEntry → SweepEntry) : (s.updateSweep n f).monitor = s.monitor := rfl
@[simp] theorem State.updateSweep_pilots (s : State) (n : Word32) (f : SweepEntry → SweepEntry) : (s.updateSweep n f).pilots = s.pilots := rfl
@[simp] theorem State.updateSweep_fleets (s : State) (n : Word32) (f : SweepEntry → SweepEntry) : (s.updateSweep n f).fleets = s.fleets := rfl
@[simp] theorem State.updateSweep_sweepCounter (s : State) (n : Word32) (f : SweepEntry → SweepEntry) : (s.updateSweep n f).sweepCounter = s.sweepCounter := rfl
@[simp] theorem State.updateSweep_lanes (s : State) (n : Word32) (f : SweepEntry → SweepEntry) : (s.updateSweep n f).lanes = s.lanes := rfl
@[simp] theorem State.updateSweep_slots (s : State) (n : Word32) (f : SweepEntry → SweepEntry) : (s.updateSweep n f).slots = s.slots := rfl
@[simp] theorem State.updateSweep_ports (s : State) (n : Word32) (f : SweepEntry → SweepEntry) : (s.updateSweep n f).ports = s.ports := rfl
@[simp] theorem State.updateSweep_harvestQueue (s : State) (n : Word32) (f : SweepEntry → SweepEntry) : (s.updateSweep n f).harvestQueue = s.harvestQueue := rfl
@[simp] theorem State.updateSweep_stackSerials (s : State) (n : Word32) (f : SweepEntry → SweepEntry) : (s.updateSweep n f).stackSerials = s.stackSerials := rfl
@[simp] theorem State.updateSweep_sealOrders (s : State) (n : Word32) (f : SweepEntry → SweepEntry) : (s.updateSweep n f).sealOrders = s.sealOrders := rfl
@[simp] theorem State.updateSweep_reading (s : State) (n : Word32) (f : SweepEntry → SweepEntry) : (s.updateSweep n f).reading = s.reading := rfl
@[simp] theorem State.updateSweep_alerts (s : State) (n : Word32) (f : SweepEntry → SweepEntry) : (s.updateSweep n f).alerts = s.alerts := rfl
@[simp] theorem State.updateSweep_spread (s : State) (n : Word32) (f : SweepEntry → SweepEntry) : (s.updateSweep n f).spread = s.spread := rfl
@[simp] theorem State.updateSweep_source (s : State) (n : Word32) (f : SweepEntry → SweepEntry) : (s.updateSweep n f).source = s.source := rfl
@[simp] theorem State.updateSweep_record (s : State) (n : Word32) (f : SweepEntry → SweepEntry) : (s.updateSweep n f).record = s.record := rfl
@[simp] theorem State.updateSweep_heldAlerts (s : State) (n : Word32) (f : SweepEntry → SweepEntry) : (s.updateSweep n f).heldAlerts = s.heldAlerts := rfl
@[simp] theorem State.updateSweep_clock (s : State) (n : Word32) (f : SweepEntry → SweepEntry) : (s.updateSweep n f).clock = s.clock := rfl
@[simp] theorem State.updateSweep_freeCount (s : State) (n : Word32) (f : SweepEntry → SweepEntry) : (s.updateSweep n f).freeCount = s.freeCount := rfl
@[simp] theorem State.updateSweep_pending (s : State) (n : Word32) (f : SweepEntry → SweepEntry) : (s.updateSweep n f).pending = s.pending := rfl

@[simp] theorem State.sendResult_ingest (s : State) (r : SweepResult) : (s.sendResult r).ingest = s.ingest := rfl
@[simp] theorem State.sendResult_ring (s : State) (r : SweepResult) : (s.sendResult r).ring = s.ring := rfl
@[simp] theorem State.sendResult_monitor (s : State) (r : SweepResult) : (s.sendResult r).monitor = s.monitor := rfl
@[simp] theorem State.sendResult_pilots (s : State) (r : SweepResult) : (s.sendResult r).pilots = s.pilots := rfl
@[simp] theorem State.sendResult_fleets (s : State) (r : SweepResult) : (s.sendResult r).fleets = s.fleets := rfl
@[simp] theorem State.sendResult_sweeps (s : State) (r : SweepResult) : (s.sendResult r).sweeps = s.sweeps := rfl
@[simp] theorem State.sendResult_sweepCounter (s : State) (r : SweepResult) : (s.sendResult r).sweepCounter = s.sweepCounter := rfl
@[simp] theorem State.sendResult_lanes (s : State) (r : SweepResult) : (s.sendResult r).lanes = s.lanes := rfl
@[simp] theorem State.sendResult_slots (s : State) (r : SweepResult) : (s.sendResult r).slots = s.slots := rfl
@[simp] theorem State.sendResult_ports (s : State) (r : SweepResult) : (s.sendResult r).ports = s.ports := rfl
@[simp] theorem State.sendResult_harvestQueue (s : State) (r : SweepResult) : (s.sendResult r).harvestQueue = s.harvestQueue := rfl
@[simp] theorem State.sendResult_stackSerials (s : State) (r : SweepResult) : (s.sendResult r).stackSerials = s.stackSerials := rfl
@[simp] theorem State.sendResult_sealOrders (s : State) (r : SweepResult) : (s.sendResult r).sealOrders = s.sealOrders := rfl
@[simp] theorem State.sendResult_reading (s : State) (r : SweepResult) : (s.sendResult r).reading = s.reading := rfl
@[simp] theorem State.sendResult_alerts (s : State) (r : SweepResult) : (s.sendResult r).alerts = s.alerts := rfl
@[simp] theorem State.sendResult_spread (s : State) (r : SweepResult) : (s.sendResult r).spread = s.spread := rfl
@[simp] theorem State.sendResult_record (s : State) (r : SweepResult) : (s.sendResult r).record = s.record := rfl
@[simp] theorem State.sendResult_heldAlerts (s : State) (r : SweepResult) : (s.sendResult r).heldAlerts = s.heldAlerts := rfl
@[simp] theorem State.sendResult_clock (s : State) (r : SweepResult) : (s.sendResult r).clock = s.clock := rfl
@[simp] theorem State.sendResult_freeCount (s : State) (r : SweepResult) : (s.sendResult r).freeCount = s.freeCount := rfl
@[simp] theorem State.sendResult_pending (s : State) (r : SweepResult) : (s.sendResult r).pending = s.pending := rfl

@[simp] theorem State.useFree_ingest (s : State) (n : Nat) : (s.useFree n).ingest = s.ingest := rfl
@[simp] theorem State.useFree_ring (s : State) (n : Nat) : (s.useFree n).ring = s.ring := rfl
@[simp] theorem State.useFree_monitor (s : State) (n : Nat) : (s.useFree n).monitor = s.monitor := rfl
@[simp] theorem State.useFree_pilots (s : State) (n : Nat) : (s.useFree n).pilots = s.pilots := rfl
@[simp] theorem State.useFree_fleets (s : State) (n : Nat) : (s.useFree n).fleets = s.fleets := rfl
@[simp] theorem State.useFree_sweeps (s : State) (n : Nat) : (s.useFree n).sweeps = s.sweeps := rfl
@[simp] theorem State.useFree_sweepCounter (s : State) (n : Nat) : (s.useFree n).sweepCounter = s.sweepCounter := rfl
@[simp] theorem State.useFree_lanes (s : State) (n : Nat) : (s.useFree n).lanes = s.lanes := rfl
@[simp] theorem State.useFree_slots (s : State) (n : Nat) : (s.useFree n).slots = s.slots := rfl
@[simp] theorem State.useFree_ports (s : State) (n : Nat) : (s.useFree n).ports = s.ports := rfl
@[simp] theorem State.useFree_harvestQueue (s : State) (n : Nat) : (s.useFree n).harvestQueue = s.harvestQueue := rfl
@[simp] theorem State.useFree_stackSerials (s : State) (n : Nat) : (s.useFree n).stackSerials = s.stackSerials := rfl
@[simp] theorem State.useFree_sealOrders (s : State) (n : Nat) : (s.useFree n).sealOrders = s.sealOrders := rfl
@[simp] theorem State.useFree_reading (s : State) (n : Nat) : (s.useFree n).reading = s.reading := rfl
@[simp] theorem State.useFree_alerts (s : State) (n : Nat) : (s.useFree n).alerts = s.alerts := rfl
@[simp] theorem State.useFree_spread (s : State) (n : Nat) : (s.useFree n).spread = s.spread := rfl
@[simp] theorem State.useFree_source (s : State) (n : Nat) : (s.useFree n).source = s.source := rfl
@[simp] theorem State.useFree_record (s : State) (n : Nat) : (s.useFree n).record = s.record := rfl
@[simp] theorem State.useFree_heldAlerts (s : State) (n : Nat) : (s.useFree n).heldAlerts = s.heldAlerts := rfl
@[simp] theorem State.useFree_clock (s : State) (n : Nat) : (s.useFree n).clock = s.clock := rfl
@[simp] theorem State.useFree_pending (s : State) (n : Nat) : (s.useFree n).pending = s.pending := rfl

@[simp] theorem State.answerSource_ingest (s : State) (rest : List Frame) (m : Message) : (s.answerSource rest m).ingest = s.ingest := rfl
@[simp] theorem State.answerSource_ring (s : State) (rest : List Frame) (m : Message) : (s.answerSource rest m).ring = s.ring := rfl
@[simp] theorem State.answerSource_monitor (s : State) (rest : List Frame) (m : Message) : (s.answerSource rest m).monitor = s.monitor := rfl
@[simp] theorem State.answerSource_pilots (s : State) (rest : List Frame) (m : Message) : (s.answerSource rest m).pilots = s.pilots := rfl
@[simp] theorem State.answerSource_fleets (s : State) (rest : List Frame) (m : Message) : (s.answerSource rest m).fleets = s.fleets := rfl
@[simp] theorem State.answerSource_sweeps (s : State) (rest : List Frame) (m : Message) : (s.answerSource rest m).sweeps = s.sweeps := rfl
@[simp] theorem State.answerSource_sweepCounter (s : State) (rest : List Frame) (m : Message) : (s.answerSource rest m).sweepCounter = s.sweepCounter := rfl
@[simp] theorem State.answerSource_lanes (s : State) (rest : List Frame) (m : Message) : (s.answerSource rest m).lanes = s.lanes := rfl
@[simp] theorem State.answerSource_slots (s : State) (rest : List Frame) (m : Message) : (s.answerSource rest m).slots = s.slots := rfl
@[simp] theorem State.answerSource_ports (s : State) (rest : List Frame) (m : Message) : (s.answerSource rest m).ports = s.ports := rfl
@[simp] theorem State.answerSource_harvestQueue (s : State) (rest : List Frame) (m : Message) : (s.answerSource rest m).harvestQueue = s.harvestQueue := rfl
@[simp] theorem State.answerSource_stackSerials (s : State) (rest : List Frame) (m : Message) : (s.answerSource rest m).stackSerials = s.stackSerials := rfl
@[simp] theorem State.answerSource_sealOrders (s : State) (rest : List Frame) (m : Message) : (s.answerSource rest m).sealOrders = s.sealOrders := rfl
@[simp] theorem State.answerSource_reading (s : State) (rest : List Frame) (m : Message) : (s.answerSource rest m).reading = s.reading := rfl
@[simp] theorem State.answerSource_alerts (s : State) (rest : List Frame) (m : Message) : (s.answerSource rest m).alerts = s.alerts := rfl
@[simp] theorem State.answerSource_spread (s : State) (rest : List Frame) (m : Message) : (s.answerSource rest m).spread = s.spread := rfl
@[simp] theorem State.answerSource_record (s : State) (rest : List Frame) (m : Message) : (s.answerSource rest m).record = s.record := rfl
@[simp] theorem State.answerSource_heldAlerts (s : State) (rest : List Frame) (m : Message) : (s.answerSource rest m).heldAlerts = s.heldAlerts := rfl
@[simp] theorem State.answerSource_clock (s : State) (rest : List Frame) (m : Message) : (s.answerSource rest m).clock = s.clock := rfl
@[simp] theorem State.answerSource_freeCount (s : State) (rest : List Frame) (m : Message) : (s.answerSource rest m).freeCount = s.freeCount := rfl
@[simp] theorem State.answerSource_pending (s : State) (rest : List Frame) (m : Message) : (s.answerSource rest m).pending = s.pending := rfl

@[simp] theorem State.answerRecord_ingest (s : State) (rest : List Frame) (m : Message) : (s.answerRecord rest m).ingest = s.ingest := rfl
@[simp] theorem State.answerRecord_ring (s : State) (rest : List Frame) (m : Message) : (s.answerRecord rest m).ring = s.ring := rfl
@[simp] theorem State.answerRecord_monitor (s : State) (rest : List Frame) (m : Message) : (s.answerRecord rest m).monitor = s.monitor := rfl
@[simp] theorem State.answerRecord_pilots (s : State) (rest : List Frame) (m : Message) : (s.answerRecord rest m).pilots = s.pilots := rfl
@[simp] theorem State.answerRecord_fleets (s : State) (rest : List Frame) (m : Message) : (s.answerRecord rest m).fleets = s.fleets := rfl
@[simp] theorem State.answerRecord_sweeps (s : State) (rest : List Frame) (m : Message) : (s.answerRecord rest m).sweeps = s.sweeps := rfl
@[simp] theorem State.answerRecord_sweepCounter (s : State) (rest : List Frame) (m : Message) : (s.answerRecord rest m).sweepCounter = s.sweepCounter := rfl
@[simp] theorem State.answerRecord_lanes (s : State) (rest : List Frame) (m : Message) : (s.answerRecord rest m).lanes = s.lanes := rfl
@[simp] theorem State.answerRecord_slots (s : State) (rest : List Frame) (m : Message) : (s.answerRecord rest m).slots = s.slots := rfl
@[simp] theorem State.answerRecord_ports (s : State) (rest : List Frame) (m : Message) : (s.answerRecord rest m).ports = s.ports := rfl
@[simp] theorem State.answerRecord_harvestQueue (s : State) (rest : List Frame) (m : Message) : (s.answerRecord rest m).harvestQueue = s.harvestQueue := rfl
@[simp] theorem State.answerRecord_stackSerials (s : State) (rest : List Frame) (m : Message) : (s.answerRecord rest m).stackSerials = s.stackSerials := rfl
@[simp] theorem State.answerRecord_sealOrders (s : State) (rest : List Frame) (m : Message) : (s.answerRecord rest m).sealOrders = s.sealOrders := rfl
@[simp] theorem State.answerRecord_reading (s : State) (rest : List Frame) (m : Message) : (s.answerRecord rest m).reading = s.reading := rfl
@[simp] theorem State.answerRecord_alerts (s : State) (rest : List Frame) (m : Message) : (s.answerRecord rest m).alerts = s.alerts := rfl
@[simp] theorem State.answerRecord_spread (s : State) (rest : List Frame) (m : Message) : (s.answerRecord rest m).spread = s.spread := rfl
@[simp] theorem State.answerRecord_source (s : State) (rest : List Frame) (m : Message) : (s.answerRecord rest m).source = s.source := rfl
@[simp] theorem State.answerRecord_heldAlerts (s : State) (rest : List Frame) (m : Message) : (s.answerRecord rest m).heldAlerts = s.heldAlerts := rfl
@[simp] theorem State.answerRecord_clock (s : State) (rest : List Frame) (m : Message) : (s.answerRecord rest m).clock = s.clock := rfl
@[simp] theorem State.answerRecord_freeCount (s : State) (rest : List Frame) (m : Message) : (s.answerRecord rest m).freeCount = s.freeCount := rfl
@[simp] theorem State.answerRecord_pending (s : State) (rest : List Frame) (m : Message) : (s.answerRecord rest m).pending = s.pending := rfl

@[simp] theorem State.openSlot_stackSerials (s : State) (k : Fin Config.stackSlots) (fl : Fin Config.fleets) (vp : Word32) : (s.openSlot k fl vp).stackSerials = s.stackSerials + 1 := rfl
@[simp] theorem State.useFree_freeCount (s : State) (n : Nat) : (s.useFree n).freeCount = s.freeCount + n := rfl

/-! ### The REPLY -/

@[simp] theorem State.pushReply_ingest (s : State) (l : LinkId) (f : Frame) (c : Code) (r : List Byte) : (s.pushReply l f c r).ingest = s.ingest := by cases l <;> rfl
@[simp] theorem State.pushReply_ring (s : State) (l : LinkId) (f : Frame) (c : Code) (r : List Byte) : (s.pushReply l f c r).ring = s.ring := by cases l <;> rfl
@[simp] theorem State.pushReply_monitor (s : State) (l : LinkId) (f : Frame) (c : Code) (r : List Byte) : (s.pushReply l f c r).monitor = s.monitor := by cases l <;> rfl
@[simp] theorem State.pushReply_pilots (s : State) (l : LinkId) (f : Frame) (c : Code) (r : List Byte) : (s.pushReply l f c r).pilots = s.pilots := by cases l <;> rfl
@[simp] theorem State.pushReply_fleets (s : State) (l : LinkId) (f : Frame) (c : Code) (r : List Byte) : (s.pushReply l f c r).fleets = s.fleets := by cases l <;> rfl
@[simp] theorem State.pushReply_sweeps (s : State) (l : LinkId) (f : Frame) (c : Code) (r : List Byte) : (s.pushReply l f c r).sweeps = s.sweeps := by cases l <;> rfl
@[simp] theorem State.pushReply_sweepCounter (s : State) (l : LinkId) (f : Frame) (c : Code) (r : List Byte) : (s.pushReply l f c r).sweepCounter = s.sweepCounter := by cases l <;> rfl
@[simp] theorem State.pushReply_lanes (s : State) (l : LinkId) (f : Frame) (c : Code) (r : List Byte) : (s.pushReply l f c r).lanes = s.lanes := by cases l <;> rfl
@[simp] theorem State.pushReply_slots (s : State) (l : LinkId) (f : Frame) (c : Code) (r : List Byte) : (s.pushReply l f c r).slots = s.slots := by cases l <;> rfl
@[simp] theorem State.pushReply_ports (s : State) (l : LinkId) (f : Frame) (c : Code) (r : List Byte) : (s.pushReply l f c r).ports = s.ports := by cases l <;> rfl
@[simp] theorem State.pushReply_harvestQueue (s : State) (l : LinkId) (f : Frame) (c : Code) (r : List Byte) : (s.pushReply l f c r).harvestQueue = s.harvestQueue := by cases l <;> rfl
@[simp] theorem State.pushReply_stackSerials (s : State) (l : LinkId) (f : Frame) (c : Code) (r : List Byte) : (s.pushReply l f c r).stackSerials = s.stackSerials := by cases l <;> rfl
@[simp] theorem State.pushReply_sealOrders (s : State) (l : LinkId) (f : Frame) (c : Code) (r : List Byte) : (s.pushReply l f c r).sealOrders = s.sealOrders := by cases l <;> rfl
@[simp] theorem State.pushReply_reading (s : State) (l : LinkId) (f : Frame) (c : Code) (r : List Byte) : (s.pushReply l f c r).reading = s.reading := by cases l <;> rfl
@[simp] theorem State.pushReply_alerts (s : State) (l : LinkId) (f : Frame) (c : Code) (r : List Byte) : (s.pushReply l f c r).alerts = s.alerts := by cases l <;> rfl
@[simp] theorem State.pushReply_spread (s : State) (l : LinkId) (f : Frame) (c : Code) (r : List Byte) : (s.pushReply l f c r).spread = s.spread := by cases l <;> rfl
@[simp] theorem State.pushReply_heldAlerts (s : State) (l : LinkId) (f : Frame) (c : Code) (r : List Byte) : (s.pushReply l f c r).heldAlerts = s.heldAlerts := by cases l <;> rfl
@[simp] theorem State.pushReply_clock (s : State) (l : LinkId) (f : Frame) (c : Code) (r : List Byte) : (s.pushReply l f c r).clock = s.clock := by cases l <;> rfl
@[simp] theorem State.pushReply_freeCount (s : State) (l : LinkId) (f : Frame) (c : Code) (r : List Byte) : (s.pushReply l f c r).freeCount = s.freeCount := by cases l <;> rfl
@[simp] theorem State.pushReply_pending (s : State) (l : LinkId) (f : Frame) (c : Code) (r : List Byte) : (s.pushReply l f c r).pending = s.pending := by cases l <;> rfl

/-- A REPLY leaves the Source Link's interface but its output queue. -/
theorem State.pushReply_source (s : State) (l : LinkId) (f : Frame) (c : Code) (r : List Byte) :
    (s.pushReply l f c r).source =
      if l = .source then s.source.push (.reply f.tag f.kind c r) else s.source := by
  cases l <;> rfl

/-- A REPLY leaves the Record Link's interface but its output queue. -/
theorem State.pushReply_record (s : State) (l : LinkId) (f : Frame) (c : Code) (r : List Byte) :
    (s.pushReply l f c r).record =
      if l = .record then s.record.push (.reply f.tag f.kind c r) else s.record := by
  cases l <;> rfl

/-! ### A pushed message -/

@[simp] theorem PartnerLink.push_up (l : PartnerLink) (m : Message) : (l.push m).up = l.up := by unfold PartnerLink.push; split <;> rfl
@[simp] theorem PartnerLink.push_input (l : PartnerLink) (m : Message) : (l.push m).input = l.input := by unfold PartnerLink.push; split <;> rfl
@[simp] theorem PartnerLink.push_crcDiscards (l : PartnerLink) (m : Message) : (l.push m).crcDiscards = l.crcDiscards := by unfold PartnerLink.push; split <;> rfl
@[simp] theorem PartnerLink.push_overflows (l : PartnerLink) (m : Message) : (l.push m).overflows = l.overflows := by unfold PartnerLink.push; split <;> rfl
@[simp] theorem PartnerLink.push_sequence (l : PartnerLink) (m : Message) : (l.push m).sequence = l.sequence := by unfold PartnerLink.push; split <;> rfl
@[simp] theorem PartnerLink.push_sent (l : PartnerLink) (m : Message) : (l.push m).sent = l.sent := by unfold PartnerLink.push; split <;> rfl

/-- A message joins the queue of a link that is up, and is discarded on a link that is down (R169, R173). -/
theorem PartnerLink.push_output (l : PartnerLink) (m : Message) :
    (l.push m).output = if l.up = true then l.output ++ [m] else l.output := by
  unfold PartnerLink.push
  split <;> rfl

/-! ### ALERTs: the Alert Unit and the Record Link alone change -/

@[simp] theorem State.sendAlert_ingest (s : State) : s.sendAlert.ingest = s.ingest := by unfold State.sendAlert; dsimp only; split <;> rfl
@[simp] theorem State.sendAlert_ring (s : State) : s.sendAlert.ring = s.ring := by unfold State.sendAlert; dsimp only; split <;> rfl
@[simp] theorem State.sendAlert_monitor (s : State) : s.sendAlert.monitor = s.monitor := by unfold State.sendAlert; dsimp only; split <;> rfl
@[simp] theorem State.sendAlert_pilots (s : State) : s.sendAlert.pilots = s.pilots := by unfold State.sendAlert; dsimp only; split <;> rfl
@[simp] theorem State.sendAlert_fleets (s : State) : s.sendAlert.fleets = s.fleets := by unfold State.sendAlert; dsimp only; split <;> rfl
@[simp] theorem State.sendAlert_sweeps (s : State) : s.sendAlert.sweeps = s.sweeps := by unfold State.sendAlert; dsimp only; split <;> rfl
@[simp] theorem State.sendAlert_sweepCounter (s : State) : s.sendAlert.sweepCounter = s.sweepCounter := by unfold State.sendAlert; dsimp only; split <;> rfl
@[simp] theorem State.sendAlert_lanes (s : State) : s.sendAlert.lanes = s.lanes := by unfold State.sendAlert; dsimp only; split <;> rfl
@[simp] theorem State.sendAlert_slots (s : State) : s.sendAlert.slots = s.slots := by unfold State.sendAlert; dsimp only; split <;> rfl
@[simp] theorem State.sendAlert_ports (s : State) : s.sendAlert.ports = s.ports := by unfold State.sendAlert; dsimp only; split <;> rfl
@[simp] theorem State.sendAlert_harvestQueue (s : State) : s.sendAlert.harvestQueue = s.harvestQueue := by unfold State.sendAlert; dsimp only; split <;> rfl
@[simp] theorem State.sendAlert_stackSerials (s : State) : s.sendAlert.stackSerials = s.stackSerials := by unfold State.sendAlert; dsimp only; split <;> rfl
@[simp] theorem State.sendAlert_sealOrders (s : State) : s.sendAlert.sealOrders = s.sealOrders := by unfold State.sendAlert; dsimp only; split <;> rfl
@[simp] theorem State.sendAlert_reading (s : State) : s.sendAlert.reading = s.reading := by unfold State.sendAlert; dsimp only; split <;> rfl
@[simp] theorem State.sendAlert_alerts (s : State) : s.sendAlert.alerts = s.alerts := by unfold State.sendAlert; dsimp only; split <;> rfl
@[simp] theorem State.sendAlert_spread (s : State) : s.sendAlert.spread = s.spread := by unfold State.sendAlert; dsimp only; split <;> rfl
@[simp] theorem State.sendAlert_source (s : State) : s.sendAlert.source = s.source := by unfold State.sendAlert; dsimp only; split <;> rfl
@[simp] theorem State.sendAlert_clock (s : State) : s.sendAlert.clock = s.clock := by unfold State.sendAlert; dsimp only; split <;> rfl
@[simp] theorem State.sendAlert_freeCount (s : State) : s.sendAlert.freeCount = s.freeCount := by unfold State.sendAlert; dsimp only; split <;> rfl
@[simp] theorem State.sendAlert_pending (s : State) : s.sendAlert.pending = s.pending := by unfold State.sendAlert; dsimp only; split <;> rfl
@[simp] theorem State.raise_ingest (s : State) (c : CauseSet) : (s.raise c).ingest = s.ingest := by unfold State.raise; dsimp only; split <;> simp
@[simp] theorem State.raise_ring (s : State) (c : CauseSet) : (s.raise c).ring = s.ring := by unfold State.raise; dsimp only; split <;> simp
@[simp] theorem State.raise_monitor (s : State) (c : CauseSet) : (s.raise c).monitor = s.monitor := by unfold State.raise; dsimp only; split <;> simp
@[simp] theorem State.raise_pilots (s : State) (c : CauseSet) : (s.raise c).pilots = s.pilots := by unfold State.raise; dsimp only; split <;> simp
@[simp] theorem State.raise_fleets (s : State) (c : CauseSet) : (s.raise c).fleets = s.fleets := by unfold State.raise; dsimp only; split <;> simp
@[simp] theorem State.raise_sweeps (s : State) (c : CauseSet) : (s.raise c).sweeps = s.sweeps := by unfold State.raise; dsimp only; split <;> simp
@[simp] theorem State.raise_sweepCounter (s : State) (c : CauseSet) : (s.raise c).sweepCounter = s.sweepCounter := by unfold State.raise; dsimp only; split <;> simp
@[simp] theorem State.raise_lanes (s : State) (c : CauseSet) : (s.raise c).lanes = s.lanes := by unfold State.raise; dsimp only; split <;> simp
@[simp] theorem State.raise_slots (s : State) (c : CauseSet) : (s.raise c).slots = s.slots := by unfold State.raise; dsimp only; split <;> simp
@[simp] theorem State.raise_ports (s : State) (c : CauseSet) : (s.raise c).ports = s.ports := by unfold State.raise; dsimp only; split <;> simp
@[simp] theorem State.raise_harvestQueue (s : State) (c : CauseSet) : (s.raise c).harvestQueue = s.harvestQueue := by unfold State.raise; dsimp only; split <;> simp
@[simp] theorem State.raise_stackSerials (s : State) (c : CauseSet) : (s.raise c).stackSerials = s.stackSerials := by unfold State.raise; dsimp only; split <;> simp
@[simp] theorem State.raise_sealOrders (s : State) (c : CauseSet) : (s.raise c).sealOrders = s.sealOrders := by unfold State.raise; dsimp only; split <;> simp
@[simp] theorem State.raise_reading (s : State) (c : CauseSet) : (s.raise c).reading = s.reading := by unfold State.raise; dsimp only; split <;> simp
@[simp] theorem State.raise_spread (s : State) (c : CauseSet) : (s.raise c).spread = s.spread := by unfold State.raise; dsimp only; split <;> simp
@[simp] theorem State.raise_source (s : State) (c : CauseSet) : (s.raise c).source = s.source := by unfold State.raise; dsimp only; split <;> simp
@[simp] theorem State.raise_clock (s : State) (c : CauseSet) : (s.raise c).clock = s.clock := by unfold State.raise; dsimp only; split <;> simp
@[simp] theorem State.raise_freeCount (s : State) (c : CauseSet) : (s.raise c).freeCount = s.freeCount := by unfold State.raise; dsimp only; split <;> simp
@[simp] theorem State.raise_pending (s : State) (c : CauseSet) : (s.raise c).pending = s.pending := by unfold State.raise; dsimp only; split <;> simp

/-- Every raised cause is pending afterwards; the mask set is kept (R179). -/
@[simp] theorem State.raise_alerts (s : State) (c : CauseSet) :
    (s.raise c).alerts = { s.alerts with pending := s.alerts.pending ||| c } := by
  unfold State.raise
  dsimp only
  split <;> simp

/-! ### Results and the end of an event -/

@[simp] theorem State.sendResults_ingest (s : State) (l : List SweepResult) : (l.foldl State.sendResult s).ingest = s.ingest := by induction l generalizing s with | nil => rfl | cons r l ih => exact ih _
@[simp] theorem State.sendResults_ring (s : State) (l : List SweepResult) : (l.foldl State.sendResult s).ring = s.ring := by induction l generalizing s with | nil => rfl | cons r l ih => exact ih _
@[simp] theorem State.sendResults_monitor (s : State) (l : List SweepResult) : (l.foldl State.sendResult s).monitor = s.monitor := by induction l generalizing s with | nil => rfl | cons r l ih => exact ih _
@[simp] theorem State.sendResults_pilots (s : State) (l : List SweepResult) : (l.foldl State.sendResult s).pilots = s.pilots := by induction l generalizing s with | nil => rfl | cons r l ih => exact ih _
@[simp] theorem State.sendResults_fleets (s : State) (l : List SweepResult) : (l.foldl State.sendResult s).fleets = s.fleets := by induction l generalizing s with | nil => rfl | cons r l ih => exact ih _
@[simp] theorem State.sendResults_sweeps (s : State) (l : List SweepResult) : (l.foldl State.sendResult s).sweeps = s.sweeps := by induction l generalizing s with | nil => rfl | cons r l ih => exact ih _
@[simp] theorem State.sendResults_sweepCounter (s : State) (l : List SweepResult) : (l.foldl State.sendResult s).sweepCounter = s.sweepCounter := by induction l generalizing s with | nil => rfl | cons r l ih => exact ih _
@[simp] theorem State.sendResults_lanes (s : State) (l : List SweepResult) : (l.foldl State.sendResult s).lanes = s.lanes := by induction l generalizing s with | nil => rfl | cons r l ih => exact ih _
@[simp] theorem State.sendResults_slots (s : State) (l : List SweepResult) : (l.foldl State.sendResult s).slots = s.slots := by induction l generalizing s with | nil => rfl | cons r l ih => exact ih _
@[simp] theorem State.sendResults_ports (s : State) (l : List SweepResult) : (l.foldl State.sendResult s).ports = s.ports := by induction l generalizing s with | nil => rfl | cons r l ih => exact ih _
@[simp] theorem State.sendResults_harvestQueue (s : State) (l : List SweepResult) : (l.foldl State.sendResult s).harvestQueue = s.harvestQueue := by induction l generalizing s with | nil => rfl | cons r l ih => exact ih _
@[simp] theorem State.sendResults_stackSerials (s : State) (l : List SweepResult) : (l.foldl State.sendResult s).stackSerials = s.stackSerials := by induction l generalizing s with | nil => rfl | cons r l ih => exact ih _
@[simp] theorem State.sendResults_sealOrders (s : State) (l : List SweepResult) : (l.foldl State.sendResult s).sealOrders = s.sealOrders := by induction l generalizing s with | nil => rfl | cons r l ih => exact ih _
@[simp] theorem State.sendResults_reading (s : State) (l : List SweepResult) : (l.foldl State.sendResult s).reading = s.reading := by induction l generalizing s with | nil => rfl | cons r l ih => exact ih _
@[simp] theorem State.sendResults_alerts (s : State) (l : List SweepResult) : (l.foldl State.sendResult s).alerts = s.alerts := by induction l generalizing s with | nil => rfl | cons r l ih => exact ih _
@[simp] theorem State.sendResults_spread (s : State) (l : List SweepResult) : (l.foldl State.sendResult s).spread = s.spread := by induction l generalizing s with | nil => rfl | cons r l ih => exact ih _
@[simp] theorem State.sendResults_record (s : State) (l : List SweepResult) : (l.foldl State.sendResult s).record = s.record := by induction l generalizing s with | nil => rfl | cons r l ih => exact ih _
@[simp] theorem State.sendResults_heldAlerts (s : State) (l : List SweepResult) : (l.foldl State.sendResult s).heldAlerts = s.heldAlerts := by induction l generalizing s with | nil => rfl | cons r l ih => exact ih _
@[simp] theorem State.sendResults_clock (s : State) (l : List SweepResult) : (l.foldl State.sendResult s).clock = s.clock := by induction l generalizing s with | nil => rfl | cons r l ih => exact ih _
@[simp] theorem State.sendResults_freeCount (s : State) (l : List SweepResult) : (l.foldl State.sendResult s).freeCount = s.freeCount := by induction l generalizing s with | nil => rfl | cons r l ih => exact ih _
@[simp] theorem State.sendResults_pending (s : State) (l : List SweepResult) : (l.foldl State.sendResult s).pending = s.pending := by induction l generalizing s with | nil => rfl | cons r l ih => exact ih _
@[simp] theorem Event.finish_ingest (e : Event) : e.finish.ingest = e.st.ingest := by simp [Event.finish]
@[simp] theorem Event.finish_ring (e : Event) : e.finish.ring = e.st.ring := by simp [Event.finish]
@[simp] theorem Event.finish_monitor (e : Event) : e.finish.monitor = e.st.monitor := by simp [Event.finish]
@[simp] theorem Event.finish_pilots (e : Event) : e.finish.pilots = e.st.pilots := by simp [Event.finish]
@[simp] theorem Event.finish_fleets (e : Event) : e.finish.fleets = e.st.fleets := by simp [Event.finish]
@[simp] theorem Event.finish_sweeps (e : Event) : e.finish.sweeps = e.st.sweeps := by simp [Event.finish]
@[simp] theorem Event.finish_sweepCounter (e : Event) : e.finish.sweepCounter = e.st.sweepCounter := by simp [Event.finish]
@[simp] theorem Event.finish_lanes (e : Event) : e.finish.lanes = e.st.lanes := by simp [Event.finish]
@[simp] theorem Event.finish_slots (e : Event) : e.finish.slots = e.st.slots := by simp [Event.finish]
@[simp] theorem Event.finish_ports (e : Event) : e.finish.ports = e.st.ports := by simp [Event.finish]
@[simp] theorem Event.finish_harvestQueue (e : Event) : e.finish.harvestQueue = e.st.harvestQueue := by simp [Event.finish]
@[simp] theorem Event.finish_stackSerials (e : Event) : e.finish.stackSerials = e.st.stackSerials := by simp [Event.finish]
@[simp] theorem Event.finish_sealOrders (e : Event) : e.finish.sealOrders = e.st.sealOrders := by simp [Event.finish]
@[simp] theorem Event.finish_reading (e : Event) : e.finish.reading = e.st.reading := by simp [Event.finish]
@[simp] theorem Event.finish_spread (e : Event) : e.finish.spread = e.st.spread := by simp [Event.finish]
@[simp] theorem Event.finish_clock (e : Event) : e.finish.clock = e.st.clock := by simp [Event.finish]
@[simp] theorem Event.finish_freeCount (e : Event) : e.finish.freeCount = e.st.freeCount := by simp [Event.finish]
@[simp] theorem Event.finish_pending (e : Event) : e.finish.pending = e.st.pending := by simp [Event.finish]
@[simp] theorem Event.reply_ingest (e : Event) (l : LinkId) (f : Frame) (c : Code) (r : List Byte) : (e.reply l f c r).ingest = e.st.ingest := by simp [Event.reply]
@[simp] theorem Event.reply_ring (e : Event) (l : LinkId) (f : Frame) (c : Code) (r : List Byte) : (e.reply l f c r).ring = e.st.ring := by simp [Event.reply]
@[simp] theorem Event.reply_monitor (e : Event) (l : LinkId) (f : Frame) (c : Code) (r : List Byte) : (e.reply l f c r).monitor = e.st.monitor := by simp [Event.reply]
@[simp] theorem Event.reply_pilots (e : Event) (l : LinkId) (f : Frame) (c : Code) (r : List Byte) : (e.reply l f c r).pilots = e.st.pilots := by simp [Event.reply]
@[simp] theorem Event.reply_fleets (e : Event) (l : LinkId) (f : Frame) (c : Code) (r : List Byte) : (e.reply l f c r).fleets = e.st.fleets := by simp [Event.reply]
@[simp] theorem Event.reply_sweeps (e : Event) (l : LinkId) (f : Frame) (c : Code) (r : List Byte) : (e.reply l f c r).sweeps = e.st.sweeps := by simp [Event.reply]
@[simp] theorem Event.reply_sweepCounter (e : Event) (l : LinkId) (f : Frame) (c : Code) (r : List Byte) : (e.reply l f c r).sweepCounter = e.st.sweepCounter := by simp [Event.reply]
@[simp] theorem Event.reply_lanes (e : Event) (l : LinkId) (f : Frame) (c : Code) (r : List Byte) : (e.reply l f c r).lanes = e.st.lanes := by simp [Event.reply]
@[simp] theorem Event.reply_slots (e : Event) (l : LinkId) (f : Frame) (c : Code) (r : List Byte) : (e.reply l f c r).slots = e.st.slots := by simp [Event.reply]
@[simp] theorem Event.reply_ports (e : Event) (l : LinkId) (f : Frame) (c : Code) (r : List Byte) : (e.reply l f c r).ports = e.st.ports := by simp [Event.reply]
@[simp] theorem Event.reply_harvestQueue (e : Event) (l : LinkId) (f : Frame) (c : Code) (r : List Byte) : (e.reply l f c r).harvestQueue = e.st.harvestQueue := by simp [Event.reply]
@[simp] theorem Event.reply_stackSerials (e : Event) (l : LinkId) (f : Frame) (c : Code) (r : List Byte) : (e.reply l f c r).stackSerials = e.st.stackSerials := by simp [Event.reply]
@[simp] theorem Event.reply_sealOrders (e : Event) (l : LinkId) (f : Frame) (c : Code) (r : List Byte) : (e.reply l f c r).sealOrders = e.st.sealOrders := by simp [Event.reply]
@[simp] theorem Event.reply_reading (e : Event) (l : LinkId) (f : Frame) (c : Code) (r : List Byte) : (e.reply l f c r).reading = e.st.reading := by simp [Event.reply]
@[simp] theorem Event.reply_spread (e : Event) (l : LinkId) (f : Frame) (c : Code) (r : List Byte) : (e.reply l f c r).spread = e.st.spread := by simp [Event.reply]
@[simp] theorem Event.reply_clock (e : Event) (l : LinkId) (f : Frame) (c : Code) (r : List Byte) : (e.reply l f c r).clock = e.st.clock := by simp [Event.reply]
@[simp] theorem Event.reply_freeCount (e : Event) (l : LinkId) (f : Frame) (c : Code) (r : List Byte) : (e.reply l f c r).freeCount = e.st.freeCount := by simp [Event.reply]
@[simp] theorem Event.reply_pending (e : Event) (l : LinkId) (f : Frame) (c : Code) (r : List Byte) : (e.reply l f c r).pending = e.st.pending := by simp [Event.reply]

@[simp] theorem Event.finish_alerts (e : Event) :
    e.finish.alerts = { e.st.alerts with pending := e.st.alerts.pending ||| e.raised } := by simp [Event.finish]
@[simp] theorem Event.reply_alerts (e : Event) (l : LinkId) (f : Frame) (c : Code) (r : List Byte) :
    (e.reply l f c r).alerts = { e.st.alerts with pending := e.st.alerts.pending ||| e.raised } := by simp [Event.reply]

/-! ### Events in the making -/

@[simp] theorem Event.start_st (s : State) : (Event.start s).st = s := rfl
@[simp] theorem Event.start_raised (s : State) : (Event.start s).raised = 0 := rfl
@[simp] theorem Event.start_results (s : State) : (Event.start s).results = [] := rfl
@[simp] theorem Event.change_st (e : Event) (f : State → State) : (e.change f).st = f e.st := rfl
@[simp] theorem Event.change_raised (e : Event) (f : State → State) : (e.change f).raised = e.raised := rfl
@[simp] theorem Event.change_results (e : Event) (f : State → State) : (e.change f).results = e.results := rfl
@[simp] theorem Event.addCause_st (e : Event) (c : Cause) : (e.addCause c).st = e.st := rfl
@[simp] theorem Event.addCause_raised (e : Event) (c : Cause) : (e.addCause c).raised = e.raised ||| c.set := rfl
@[simp] theorem Event.addCause_results (e : Event) (c : Cause) : (e.addCause c).results = e.results := rfl
@[simp] theorem Event.addCauseIf_st (e : Event) (b : Bool) (c : Cause) : (e.addCauseIf b c).st = e.st := by
  unfold Event.addCauseIf; split <;> rfl
@[simp] theorem Event.addCauseIf_results (e : Event) (b : Bool) (c : Cause) : (e.addCauseIf b c).results = e.results := by
  unfold Event.addCauseIf; split <;> rfl
theorem Event.addCauseIf_raised (e : Event) (b : Bool) (c : Cause) :
    (e.addCauseIf b c).raised = if b = true then e.raised ||| c.set else e.raised := by
  unfold Event.addCauseIf; split <;> rfl

end Sys2Proof.Machine
end

