-- ==== Sys2Proof/Laws/Clock.lean ====
section
/-! SUPPORT. Grants, due timers and the passing of time: what each can do, said once. -/

namespace Sys2Proof.Machine

/-! ### Grants -/

theorem grantNext_cases (s : State) :
    (∃ e l, chooseSweep s.sweeps = some e ∧ chooseLane s = some l ∧ grantNext s = grantTo e l s) ∨
      NoGrant s ∧ grantNext s = s := by
  unfold grantNext NoGrant
  cases chooseSweep s.sweeps <;> cases chooseLane s <;> simp

theorem grantNext_of_noGrant {s : State} (h : NoGrant s) : grantNext s = s := by
  rcases h with h | h <;> unfold grantNext
  · rw [h]
  · rw [h]; cases chooseSweep s.sweeps <;> rfl

theorem grantAll_of_noGrant {s : State} (h : NoGrant s) : grantAll s = s :=
  Function.iterate_fixed (grantNext_of_noGrant h) _

theorem grantDue_eq_false {s : State} : s.grantDue = false ↔ NoGrant s := by
  unfold State.grantDue NoGrant
  cases chooseSweep s.sweeps <;> cases chooseLane s <;> simp

/-- A property that grants keep holds after all of them. -/
theorem grantAll_induction {P : State → Prop} (h : ∀ s, P s → P (grantNext s)) {s : State} (hs : P s) :
    P (grantAll s) := by
  suffices ∀ n, P (grantNext^[n] s) from this _
  intro n
  induction n with
  | zero => exact hs
  | succ n ih => rw [Function.iterate_succ_apply']; exact h _ ih

@[simp] theorem grantNext_clock (s : State) : (grantNext s).clock = s.clock := by
  rcases grantNext_cases s with ⟨e, l, -, -, h⟩ | ⟨-, h⟩ <;> rw [h]; rfl
@[simp] theorem grantNext_pending (s : State) : (grantNext s).pending = s.pending := by
  rcases grantNext_cases s with ⟨e, l, -, -, h⟩ | ⟨-, h⟩ <;> rw [h]; rfl
@[simp] theorem grantAll_clock (s : State) : (grantAll s).clock = s.clock :=
  grantAll_induction (P := fun t => t.clock = s.clock) (fun t h => by rw [grantNext_clock, h]) rfl
@[simp] theorem grantAll_pending (s : State) : (grantAll s).pending = s.pending :=
  grantAll_induction (P := fun t => t.pending = s.pending) (fun t h => by rw [grantNext_pending, h]) rfl

/-! ### Timers that are due -/

theorem fillTimer_eq_some {p : PilotPhase} {t : Timer} :
    p.fillTimer = some t ↔ ∃ n i held, p = .filling n i held t := by
  cases p <;> simp [PilotPhase.fillTimer]

theorem lingerTimer_eq_some {st : Stack} {t : Timer} : st.lingerTimer = some t ↔ st.phase = .linger t := by
  unfold Stack.lingerTimer
  split <;> simp_all

/-- The timers of the list are those that run. -/
theorem mem_timers {s : State} {t : Timer} : t ∈ s.timers ↔ RunsTimer s t := by
  unfold State.timers RunsTimer
  simp only [List.mem_append, List.mem_filterMap, fillTimer_eq_some, Option.bind_eq_some_iff, lingerTimer_eq_some,
    or_assoc]
  refine or_congr ⟨?_, ?_⟩ (or_congr Iff.rfl ⟨?_, ?_⟩)
  · rintro ⟨p, hp, n, i, held, h⟩
    obtain ⟨k, hk, rfl⟩ := List.mem_iff_getElem.mp hp
    exact ⟨⟨k, by simpa using hk⟩, n, i, held, by simpa using h⟩
  · rintro ⟨p, n, i, held, h⟩
    exact ⟨s.pilots[p], by simp, n, i, held, h⟩
  · rintro ⟨slot, hslot, st, rfl, h⟩
    obtain ⟨k, hk, hst⟩ := List.mem_iff_getElem.mp hslot
    exact ⟨⟨k, by simpa using hk⟩, st, by simpa using hst, h⟩
  · rintro ⟨k, st, hst, h⟩
    exact ⟨s.slots[k], by simp, st, hst, h⟩

/-- The moments are those of the running timers whose latest moment comes by the time. -/
theorem mem_dueMoments {s : State} {time m : Nat} :
    m ∈ s.dueMoments time ↔ ∃ t, RunsTimer s t ∧ m = t.deadline + 1 ∧ m ≤ time := by
  unfold State.dueMoments
  rw [(List.perm_insertionSort _ _).mem_iff]
  simp only [List.mem_filter, List.mem_map, mem_timers, decide_eq_true_eq]
  constructor
  · rintro ⟨⟨t, ht, rfl⟩, h⟩; exact ⟨t, ht, rfl, h⟩
  · rintro ⟨t, ht, rfl, h⟩; exact ⟨⟨t, ht, rfl⟩, h⟩

theorem dueMoments_sorted (s : State) (time : Nat) : (s.dueMoments time).Pairwise (· ≤ ·) :=
  List.pairwise_insertionSort _ _

theorem dueMoments_eq_nil {s : State} {time : Nat} (h : ∀ t, RunsTimer s t → time ≤ t.deadline) :
    s.dueMoments time = [] := by
  rw [List.eq_nil_iff_forall_not_mem]
  intro m hm
  obtain ⟨t, ht, rfl, hle⟩ := mem_dueMoments.mp hm
  have := h t ht
  omega

/-! ### Time passes -/

theorem advanceTo_cases (m : Nat) (s : State) :
    m ≤ s.clock ∧ advanceTo m s = s ∨ s.clock < m ∧ advanceTo m s = { grantAll s with clock := m } := by
  unfold advanceTo
  split
  · exact .inr ⟨‹_›, rfl⟩
  · exact .inl ⟨by omega, rfl⟩

@[simp] theorem advanceTo_clock (m : Nat) (s : State) : (advanceTo m s).clock = max s.clock m := by
  rcases advanceTo_cases m s with ⟨h, e⟩ | ⟨h, e⟩ <;> rw [e]
  · exact (max_eq_left h).symm
  · exact (max_eq_right h.le).symm

/-- Where nothing happens of itself, only the clock moves. -/
theorem passTo_of_calm {s : State} {time : Nat} (h : CalmUntil s time) :
    passTo time s = { s with clock := max s.clock time } := by
  unfold passTo
  rw [dueMoments_eq_nil h.1]
  rcases advanceTo_cases time s with ⟨hm, e⟩ | ⟨hm, e⟩ <;> simp only [List.foldl_nil, e]
  · rw [max_eq_left hm]
  · rw [grantAll_of_noGrant (h.2 hm), max_eq_right hm.le]

/-- A property that grants, the clock's advance and each timer's expiry keep holds after time has passed. -/
theorem passTo_induction {P : State → Prop} (hgrant : ∀ s, P s → P (grantNext s))
    (hclock : ∀ s m, P s → s.clock < m → P { s with clock := m })
    (hfill : ∀ s k, P s → P (fillTimeout k s)) (hreport : ∀ s n, P s → P (reportTimerExpiry n s))
    (hlinger : ∀ s k, P s → P (lingerExpiry k s)) {s : State} (time : Nat) (hs : P s) : P (passTo time s) := by
  have fold : ∀ {α : Type} (f : State → α → State) (l : List α) (t : State),
      (∀ t a, P t → P (f t a)) → P t → P (l.foldl f t) := by
    intro α f l t hf ht
    induction l generalizing t with
    | nil => exact ht
    | cons a l ih => exact ih _ (hf t a ht)
  have hadvance : ∀ t m, P t → P (advanceTo m t) := by
    intro t m ht
    rcases advanceTo_cases m t with ⟨-, e⟩ | ⟨h, e⟩ <;> rw [e]
    · exact ht
    · exact hclock _ _ (grantAll_induction hgrant ht) (by simpa using h)
  refine hadvance _ _ (fold _ _ _ (fun t m ht => ?_) hs)
  unfold expireDue
  refine fold _ _ _ (fun t k ht => ?_) (fold _ _ _ (fun t n ht => ?_) (fold _ _ _ (fun t k ht => ?_) (hadvance t m ht)))
  · unfold expireLinger; split
    · exact ht
    · split
      · exact hlinger _ _ ht
      · exact ht
  · unfold expireReport; split
    · exact ht
    · split
      · exact hreport _ _ ht
      · exact ht
  · unfold expireFill; split
    · exact ht
    · split
      · exact hfill _ _ ht
      · exact ht

/-- On an empty queue a step is a grant that is due, or else one millisecond. -/
theorem step_empty {s : State} (h : s.pending = []) : step s = .next (idle s) := by
  unfold step; rw [h]

theorem idle_of_noGrant {s : State} (h : NoGrant s) : idle s = passTo (s.clock + 1) s := by
  unfold idle tick
  rw [grantDue_eq_false.mpr h]; rfl

end Sys2Proof.Machine
end

