-- ==== Sys2Proof/Laws/Messages.lean ====
section
/-! SUPPORT. What taking a request, handing on messages and raising causes do (R166 to R171, R173, R179). -/

namespace Sys2Proof.Machine

/-! ### Replies and requests -/

theorem PartnerLink.push_of_up {l : PartnerLink} (h : l.up = true) (m : Message) :
    l.push m = { l with output := l.output ++ [m] } := by simp [PartnerLink.push, h]

theorem PartnerLink.push_of_down {l : PartnerLink} (h : l.up = false) (m : Message) : l.push m = l := by
  simp [PartnerLink.push, h]

/-- A REPLY on the Source Link while it is up. -/
theorem State.pushReply_source_up {s : State} (h : s.source.up = true) (f : Frame) (c : Code) (r : List Byte) :
    s.pushReply .source f c r = s.answerSource s.source.input (.reply f.tag f.kind c r) := by
  simp [State.pushReply, State.answerSource, PartnerLink.push_of_up h]

/-- A REPLY on the Record Link while it is up. -/
theorem State.pushReply_record_up {s : State} (h : s.record.up = true) (f : Frame) (c : Code) (r : List Byte) :
    s.pushReply .record f c r = s.answerRecord s.record.input (.reply f.tag f.kind c r) := by
  simp [State.pushReply, State.answerRecord, PartnerLink.push_of_up h]

/-- A request on the Source Link reaches its server where its kind and length are right; of another kind it is not
taken; of the wrong length it is refused by the link. -/
theorem request_source {s : State} {kind tag : Byte} {p : List Byte} {rest : List Frame}
    (h : SourceRequest s kind tag p rest) (k : Nat) (fits : List Byte → Bool) (serve : Frame → State → State) :
    request .source k fits serve s =
      if kind.toNat = k then
        if fits p then
          serve { kind := kind, tag := tag, payload := p } { s with source := { s.source with input := rest } }
        else s.answerSource rest (.reply tag kind .badLength [])
      else s := by
  obtain ⟨hup, hin⟩ := h
  simp [request, State.takeRequest, hin, State.pushReply, PartnerLink.push, hup, State.answerSource]

/-- A request on the Record Link, likewise. -/
theorem request_record {s : State} {kind tag : Byte} {p : List Byte} {rest : List Frame}
    (h : RecordRequest s kind tag p rest) (k : Nat) (fits : List Byte → Bool) (serve : Frame → State → State) :
    request .record k fits serve s =
      if kind.toNat = k then
        if fits p then
          serve { kind := kind, tag := tag, payload := p } { s with record := { s.record with input := rest } }
        else s.answerRecord rest (.reply tag kind .badLength [])
      else s := by
  obtain ⟨hup, hr, hin⟩ := h
  simp [request, State.takeRequest, hin, hr, State.pushReply, PartnerLink.push, hup, State.answerRecord]

/-- Whatever a request does, it is one of three: nothing taken, refused by the link, or served. -/
theorem request_cases (link : LinkId) (k : Nat) (fits : List Byte → Bool) (serve : Frame → State → State) (s : State) :
    request link k fits serve s = s ∨
      ∃ f s1, s.takeRequest link = some (f, s1) ∧ f.kind.toNat = k ∧
        (request link k fits serve s = s1.pushReply link f .badLength [] ∨
          fits f.payload = true ∧ request link k fits serve s = serve f s1) := by
  unfold request
  cases h : s.takeRequest link with
  | none => simp
  | some r =>
    obtain ⟨f, s1⟩ := r
    dsimp only
    split
    · split
      · exact .inr ⟨f, s1, rfl, ‹_›, .inr ⟨‹_›, rfl⟩⟩
      · exact .inr ⟨f, s1, rfl, ‹_›, .inl rfl⟩
    · exact .inl rfl

/-! ### The messages of a read -/

@[simp] theorem PartnerLink.hasSent_iff (l : PartnerLink) : l.hasSent = true ↔ l.output = [] := by
  simp [PartnerLink.hasSent]

/-- A message of a read handed on by a link that is up. -/
theorem handMessage_up {s : State} (h : s.record.up = true) (r : ReadInHand) (m : Message) :
    handMessage r m s =
      if r.handed + 1 = r.count + 2 then
        { s with
          record := s.heldAlerts.foldl PartnerLink.push { s.record with output := s.record.output ++ [m] }
          heldAlerts := [], reading := none }
      else
        { s with
          record := { s.record with output := s.record.output ++ [m] }
          reading := some { r with handed := r.handed + 1 } } := by
  unfold handMessage
  rw [PartnerLink.push_of_up h]

/-- RECORD_HEADER hands on nothing, or the header of the read in hand behind a queue that has been sent. -/
theorem handHeader_cases (s : State) : handHeader s = s ∨
    ∃ r st, s.reading = some r ∧ s.slots[r.slot] = some st ∧ r.handed = 1 ∧ s.record.output = [] ∧
      handHeader s = handMessage r (.recordHeader r.tag (headerOf r st)) s := by
  unfold handHeader
  split
  · exact .inl rfl
  next r hr =>
    split
    · exact .inl rfl
    next st hst =>
      split
      next h => exact .inr ⟨r, st, hr, hst, h.1, (PartnerLink.hasSent_iff _).1 h.2, rfl⟩
      · exact .inl rfl

/-- TRACE hands on nothing, or the next trace of the read in hand behind a queue that has been sent. -/
theorem handTrace_cases (s : State) : handTrace s = s ∨
    ∃ r st, s.reading = some r ∧ s.slots[r.slot] = some st ∧ 2 ≤ r.handed ∧ r.handed < r.count + 2 ∧
      s.record.output = [] ∧ handTrace s = handMessage r (.trace r.tag (nextTrace r st s)) s := by
  unfold handTrace
  split
  · exact .inl rfl
  next r hr =>
    split
    · exact .inl rfl
    next st hst =>
      split
      next h => exact .inr ⟨r, st, hr, hst, h.1, h.2.1, (PartnerLink.hasSent_iff _).1 h.2.2, rfl⟩
      · exact .inl rfl

/-! ### Causes -/

/-- What a raised set changes: the pending set, the Record Link and the held ALERTs, nothing else. -/
theorem State.raise_eq (s : State) (c : CauseSet) : s.raise c =
    { s with
      alerts := { s.alerts with pending := s.alerts.pending ||| c }
      record := (s.raise c).record
      heldAlerts := (s.raise c).heldAlerts } := by
  unfold State.raise State.sendAlert
  dsimp only
  split
  · rfl
  · split <;> rfl

@[simp] theorem State.raise_zero (s : State) : s.raise 0 = s := by simp [State.raise]

/-- The queue of the Record Link only grows by a raise, and its input, counters and state stay. -/
theorem State.raise_record (s : State) (c : CauseSet) :
    (s.raise c).record.input = s.record.input ∧ (s.raise c).record.up = s.record.up ∧
      (s.raise c).record.crcDiscards = s.record.crcDiscards ∧ (s.raise c).record.overflows = s.record.overflows ∧
      (s.raise c).record.sent = s.record.sent := by
  unfold State.raise State.sendAlert PartnerLink.push
  dsimp only
  split
  · simp
  · split
    · simp
    · split <;> simp

/-- The results of an event leave everything but the Source Link's queue and sequence. -/
theorem sendResults_eq (l : List SweepResult) (s : State) : l.foldl State.sendResult s =
    { s with
      source := { s.source with
        output := (l.foldl State.sendResult s).source.output
        sequence := s.source.sequence + BitVec.ofNat 8 l.length } } := by
  induction l generalizing s with
  | nil => simp
  | cons r l ih =>
    rw [List.foldl_cons, ih]
    simp only [State.sendResult, PartnerLink.push]
    split <;> simp [BitVec.ofNat_add, add_comm, add_left_comm]

/-- The queue after the results of an event on a link that is up. -/
theorem sendResults_output {s : State} (h : s.source.up = true) (l : List SweepResult) :
    (l.foldl State.sendResult s).source.output = s.source.output ++ resultMessages s.source.sequence l := by
  induction l generalizing s with
  | nil => simp [resultMessages]
  | cons r l ih =>
    rw [List.foldl_cons, ih (by simp [State.sendResult, PartnerLink.push, h])]
    simp [State.sendResult, PartnerLink.push, h, resultMessages]

/-- A link that is down queues nothing. -/
theorem sendResults_down {s : State} (h : s.source.up = false) (l : List SweepResult) :
    (l.foldl State.sendResult s).source.output = s.source.output := by
  induction l generalizing s with
  | nil => rfl
  | cons r l ih =>
    rw [List.foldl_cons, ih (by simp [State.sendResult, PartnerLink.push, h])]
    simp [State.sendResult, PartnerLink.push, h]

end Sys2Proof.Machine
end

