-- ==== Sys2Proof/Laws/Payloads.lean ====
section
/-! SUPPORT. Reading back what is written: fields of a payload (sections 9.6, 9.8), pieces of a list, and the frame
envelope. -/

namespace Sys2Proof.Machine

@[simp] theorem byteAt_cons_zero (b : Byte) (l : List Byte) : byteAt (b :: l) 0 = b.toNat := rfl

@[simp] theorem byteAt_cons_succ (b : Byte) (l : List Byte) (i : Nat) : byteAt (b :: l) (i + 1) = byteAt l i := rfl

@[simp] theorem byteAt_nil (i : Nat) : byteAt [] i = 0 := by simp [byteAt]

theorem byteAt_lt (p : List Byte) (i : Nat) : byteAt p i < 256 := (p.getD i 0).isLt

theorem halfAt_lt (p : List Byte) (i : Nat) : halfAt p i < 65536 := by
  have := byteAt_lt p i; have := byteAt_lt p (i + 1); unfold halfAt; omega

theorem byteAt_append_right (p q : List Byte) (i : Nat) : byteAt (p ++ q) (p.length + i) = byteAt q i := by
  unfold byteAt; rw [List.getD_append_right _ _ _ _ (by omega)]; simp

theorem byteAt_append_left {p : List Byte} (q : List Byte) {i : Nat} (h : i < p.length) :
    byteAt (p ++ q) i = byteAt p i := by
  unfold byteAt; rw [List.getD_append _ _ _ _ h]

@[simp] theorem enc8_length (n : Nat) : (enc8 n).length = 1 := rfl
@[simp] theorem enc16_length (n : Nat) : (enc16 n).length = 2 := rfl
@[simp] theorem enc32_length (n : Nat) : (enc32 n).length = 4 := rfl
@[simp] theorem encWord_length (w : Word32) : (encWord w).length = 4 := rfl

/-- A byte reads back a number below 256. -/
theorem ofNat8_toNat {n : Nat} (h : n < 256) : (BitVec.ofNat 8 n).toNat = n := by
  simp [BitVec.toNat_ofNat]; omega

/-- Two bytes read back a number below 65,536. -/
theorem ofNat16_toNat {n : Nat} (h : n < 65536) : (BitVec.ofNat 8 (n / 256)).toNat * 256 + (BitVec.ofNat 8 n).toNat = n := by
  simp only [BitVec.toNat_ofNat]; omega

/-- Four bytes read back a word. -/
theorem encWord_toNat (w : Word32) :
    BitVec.ofNat 32 (((BitVec.ofNat 8 (w.toNat / 65536 / 256)).toNat * 256 + (BitVec.ofNat 8 (w.toNat / 65536)).toNat) *
      65536 + ((BitVec.ofNat 8 (w.toNat % 65536 / 256)).toNat * 256 + (BitVec.ofNat 8 (w.toNat % 65536)).toNat)) = w := by
  have := w.isLt
  apply BitVec.eq_of_toNat_eq
  simp only [BitVec.toNat_ofNat]
  omega

theorem asFin_of_lt {n v : Nat} (h : v < n) : asFin n v = some ⟨v, h⟩ := by simp [asFin, h]

@[simp] theorem asFin_val {n : Nat} (i : Fin n) : asFin n i.val = some i := by simp [asFin]

/-- A number carried in one byte is found in its table. -/
@[simp] theorem asFin_mod {n : Nat} (i : Fin n) (h : n ≤ 256) : asFin n (i.val % 256) = some i := by
  rw [Nat.mod_eq_of_lt (by omega), asFin_val]

theorem asFin_of_le {n v : Nat} (h : n ≤ v) : asFin n v = none := by simp [asFin, Nat.not_lt.2 h]

/-- A list of pieces of one length is cut back into them. -/
theorem chunks_flatMap {α β : Type} (k : Nat) (l : List α) (f : α → List β) (rest : List β)
    (h : ∀ a ∈ l, (f a).length = k) : chunks k l.length (l.flatMap f ++ rest) = l.map f := by
  induction l with
  | nil => rfl
  | cons a l ih =>
    have ha := h a (by simp)
    simp only [List.length_cons, chunks, List.flatMap_cons, List.append_assoc, List.map_cons]
    rw [List.take_append_of_le_length (by omega), List.drop_append_of_le_length (by omega),
      List.take_of_length_le (by omega), List.drop_of_length_le (by omega)]
    simp [ih fun b hb => h b (by simp [hb])]

/-- The number of pieces is the number asked for. -/
@[simp] theorem chunks_length {α : Type} (k n : Nat) (l : List α) : (chunks k n l).length = n := by
  induction n generalizing l with
  | zero => rfl
  | succ n ih => simp [chunks, ih]

end Sys2Proof.Machine
end

