-- ==== Sys2Proof/Laws/Tables.lean ====
section
/-! SUPPORT. What the operations over tables, lists and numbers of Machine/Ops.lean do, entry by entry. -/

namespace Sys2Proof.Machine

/-! ### Tables -/

@[simp] theorem mapVec_getElem {α β : Type} {n : Nat} (f : α → β) (v : Vector α n) (i : Nat) (h : i < n) :
    (mapVec f v)[i] = f v[i] := by
  simp [mapVec]

theorem mapFirst_getElem? {α : Type} (f : α → α) (k : Nat) (l : List α) (i : Nat) :
    (mapFirst f k l)[i]? = if i < k then l[i]?.map f else l[i]? := by
  induction k generalizing l i with
  | zero => simp [mapFirst]
  | succ k ih => cases l with
    | nil => simp [mapFirst]
    | cons a l => cases i with
      | zero => simp [mapFirst]
      | succ i => simp [mapFirst, ih]

theorem zipFirst_getElem? {α β : Type} (f : α → β → α) (l : List α) (m : List β) (i : Nat) :
    (zipFirst f l m)[i]? = match l[i]?, m[i]? with
      | none, _ => none
      | some a, none => some a
      | some a, some b => some (f a b) := by
  induction l generalizing m i with
  | nil => simp [zipFirst]
  | cons a l ih => cases m with
    | nil => cases h : (a :: l)[i]? <;> simp [zipFirst, h]
    | cons b m => cases i with
      | zero => simp [zipFirst]
      | succ i => simp [zipFirst, ih]

theorem zipFirst_nil {α β : Type} (f : α → β → α) (l : List α) : zipFirst f l [] = l := by
  cases l <;> rfl

theorem mapFirst_eq {α : Type} (f : α → α) (k : Nat) (l : List α) :
    mapFirst f k l = (l.take k).map f ++ l.drop k := by
  induction k generalizing l with
  | zero => simp [mapFirst]
  | succ k ih => cases l with
    | nil => simp [mapFirst]
    | cons a l => simp [mapFirst, ih]

theorem mapFirstVec_getElem {α : Type} {n : Nat} (f : α → α) (k : Nat) (v : Vector α n) (i : Nat) (h : i < n) :
    (mapFirstVec f k v)[i] = if i < k then f v[i] else v[i] := by
  have := mapFirst_getElem? f k v.toList i
  rw [List.getElem?_eq_getElem (by simpa [mapFirst_length] using h),
    List.getElem?_eq_getElem (by simpa using h)] at this
  have h2 : (mapFirstVec f k v)[i] = (mapFirst f k v.toList)[i]'(by simpa [mapFirst_length] using h) := by
    simp [mapFirstVec]
  rw [h2]
  split <;> simp_all

theorem zipFirstVec_getElem {α β : Type} {n : Nat} (f : α → β → α) (v : Vector α n) (m : List β) (i : Nat)
    (h : i < n) : (zipFirstVec f v m)[i] = match m[i]? with
      | none => v[i]
      | some b => f v[i] b := by
  have := zipFirst_getElem? f v.toList m i
  rw [List.getElem?_eq_getElem (by simpa [zipFirst_length] using h),
    List.getElem?_eq_getElem (by simpa using h)] at this
  have h2 : (zipFirstVec f v m)[i] = (zipFirst f v.toList m)[i]'(by simpa [zipFirst_length] using h) := by
    simp [zipFirstVec]
  rw [h2]
  cases hm : m[i]? <;> simp_all

@[simp] theorem mapVec_toList {α β : Type} {n : Nat} (f : α → β) (v : Vector α n) :
    (mapVec f v).toList = v.toList.map f := rfl

@[simp] theorem mapFirstVec_toList {α : Type} {n : Nat} (f : α → α) (k : Nat) (v : Vector α n) :
    (mapFirstVec f k v).toList = mapFirst f k v.toList := rfl

@[simp] theorem zipFirstVec_toList {α β : Type} {n : Nat} (f : α → β → α) (v : Vector α n) (m : List β) :
    (zipFirstVec f v m).toList = zipFirst f v.toList m := rfl

/-! ### Lists -/

theorem removeFirst_sublist {α : Type} (p : α → Bool) (l : List α) : (removeFirst p l).Sublist l := by
  induction l with
  | nil => exact .slnil
  | cons a l ih =>
    unfold removeFirst
    split
    · exact List.sublist_cons_self a l
    · exact ih.cons_cons a

theorem removeFirst_mem {α : Type} {p : α → Bool} {l : List α} {a : α} (h : a ∈ removeFirst p l) : a ∈ l :=
  (removeFirst_sublist p l).subset h

theorem removeFirst_of_none {α : Type} {p : α → Bool} {l : List α} (h : ∀ a ∈ l, p a = false) :
    removeFirst p l = l := by
  induction l with
  | nil => rfl
  | cons a l ih =>
    simp only [List.mem_cons, forall_eq_or_imp] at h
    simp [removeFirst, h.1, ih h.2]

/-- Where at most one element satisfies the condition, removing the first removes every such element. -/
theorem removeFirst_eq_filter {α : Type} {p : α → Bool} {l : List α}
    (h : l.Pairwise fun a b => ¬ (p a = true ∧ p b = true)) : removeFirst p l = l.filter fun a => !p a := by
  induction l with
  | nil => rfl
  | cons a l ih =>
    rw [List.pairwise_cons] at h
    by_cases hp : p a = true
    · have : l.filter (fun a => !p a) = l := List.filter_eq_self.2 fun b hb => by simpa [hp] using h.1 b hb
      simp [removeFirst, hp, this]
    · simp [removeFirst, hp, ih h.2]

theorem removeFirst_length {α : Type} {p : α → Bool} {l : List α} (h : ∃ a ∈ l, p a = true) :
    (removeFirst p l).length + 1 = l.length := by
  induction l with
  | nil => simp at h
  | cons a l ih =>
    by_cases hp : p a = true
    · simp [removeFirst, hp]
    · have := ih (by simpa [hp] using h)
      simp [removeFirst, hp, this]

/-- Taking out of a list without repeats. -/
theorem removeFirst_nodup {α : Type} [DecidableEq α] {l : List α} (h : l.Nodup) (a : α) :
    removeFirst (fun b => decide (b = a)) l = l.filter fun b => decide (b ≠ a) := by
  rw [removeFirst_eq_filter]
  · congr 1; funext b; simp
  · exact h.imp fun {b c} hbc => by simp only [decide_eq_true_eq]; rintro ⟨rfl, rfl⟩; exact hbc rfl

theorem placeOf_le {α : Type} [DecidableEq α] {a : α} {l : List α} {n : Nat} (h : placeOf a l = some n) :
    1 ≤ n ∧ n ≤ l.length := by
  induction l generalizing n with
  | nil => simp [placeOf] at h
  | cons b l ih =>
    unfold placeOf at h
    split at h
    · simp at h; subst h; simp
    · simp only [Option.map_eq_some_iff] at h
      obtain ⟨m, hm, rfl⟩ := h
      have := ih hm
      simp; omega

/-! ### Numbers -/

/-- A clamp is the nearer end of the range for a value outside it. -/
theorem clamp_eq (lo hi v : Nat) (h : lo ≤ hi) : clamp lo hi v = max lo (min hi v) := by
  unfold clamp; split
  · omega
  · split <;> omega

theorem clamp_range (lo hi v : Nat) (h : lo ≤ hi) : lo ≤ clamp lo hi v ∧ clamp lo hi v ≤ hi := by
  rw [clamp_eq lo hi v h]; omega

/-- A counter of 32 bits stops at its largest value. -/
theorem satAdd32_toNat (c : Word32) (n : Nat) : (satAdd32 c n).toNat = min (c.toNat + n) 4294967295 := by
  unfold satAdd32
  split
  · rw [BitVec.toNat_ofNat]; omega
  · rw [BitVec.toNat_ofNat]; omega

theorem saturate_eq (n : Nat) (v : Int) : saturate n v = max (-(2 ^ (n - 1) : Int)) (min (2 ^ (n - 1) - 1) v) := by
  have : (0 : Int) < 2 ^ (n - 1) := by positivity
  unfold saturate; split
  · omega
  · split <;> omega

/-- Rounding half away from zero: the magnitude is the nearest multiple's, halves upward. -/
theorem roundDiv_bounds (a : Int) (d : Nat) (h : 1 ≤ d) :
    2 * ((roundDiv a d).natAbs * d) ≤ 2 * a.natAbs + d ∧ 2 * a.natAbs < 2 * ((roundDiv a d).natAbs * d) + d := by
  have hm := Nat.div_add_mod a.natAbs d
  have hlt := Nat.mod_lt a.natAbs h
  rw [Nat.mul_comm] at hm
  unfold roundDiv
  generalize a.natAbs / d = q at *
  generalize a.natAbs % d = r at *
  have hc : (if a < 0 then -((q + (if d ≤ 2 * r then 1 else 0) : Nat) : Int)
      else ((q + (if d ≤ 2 * r then 1 else 0) : Nat) : Int)).natAbs = q + (if d ≤ 2 * r then 1 else 0) := by
    by_cases ha : a < 0
    · rw [if_pos ha, Int.natAbs_neg, Int.natAbs_natCast]
    · rw [if_neg ha, Int.natAbs_natCast]
  simp only [hc]
  split
  · rw [Nat.add_mul]; omega
  · simp; omega

theorem roundDiv_nonneg {a : Int} (d : Nat) (h : 0 ≤ a) : 0 ≤ roundDiv a d := by
  unfold roundDiv; rw [if_neg (by omega)]; positivity

theorem roundDiv_nonpos {a : Int} {d : Nat} (h : a ≤ 0) (hd : 1 ≤ d) : roundDiv a d ≤ 0 := by
  unfold roundDiv
  rcases h.lt_or_eq with h | rfl
  · rw [if_pos h]; exact Int.neg_nonpos_of_nonneg (Int.natCast_nonneg _)
  · have : ¬ d ≤ 0 := by omega
    simp [this]

@[simp] theorem roundDiv_one (a : Int) : roundDiv a 1 = a := by
  have h := roundDiv_bounds a 1 (by omega)
  by_cases ha : 0 ≤ a
  · have := roundDiv_nonneg 1 ha; omega
  · have := roundDiv_nonpos (d := 1) (a := a) (by omega) (by omega); omega

/-! ### SSNs -/

/-- "At or before" as a distance. -/
theorem ssnAtOrBefore_iff (a b : Ssn) : ssnAtOrBefore a b = true ↔ (b - a).toNat ≤ 2147483647 := by
  unfold ssnAtOrBefore ssnBefore
  by_cases h : a = b
  · subst h; simp
  · have : (b - a).toNat ≠ 0 := fun h0 => h (by
      have : b - a = 0 := BitVec.eq_of_toNat_eq (by simpa using h0)
      bv_omega)
    simp only [h, decide_false, Bool.false_or, decide_eq_true_eq]; omega

/-- "Before" is "at or before" and not equal. -/
theorem ssnBefore_iff (a b : Ssn) : ssnBefore a b = true ↔ 1 ≤ (b - a).toNat ∧ (b - a).toNat ≤ 2147483647 := by
  simp [ssnBefore]

end Sys2Proof.Machine
end

