-- ==== Sys2Proof/Laws/Sweeps.lean ====
section
/-! SUPPORT. What the shared operations over sweeps and stack slots do: the seal of a slot (R133, R135), the resolution
of one entry (R76, R77) and of many (R78 to R82). -/

namespace Sys2Proof.Machine

/-! ### Seals -/

/-- A slot enters SEALED: all it does to an event. -/
theorem enterSealed_eq (k : Fin Config.stackSlots) (cause : SealCause) (st : Stack) (e : Event) :
    enterSealed k cause st e =
      { st :=
          { e.st.setSlot k (some { st with phase := .sealed cause e.st.sealOrders }) with
            sealOrders := e.st.sealOrders + 1, harvestQueue := e.st.harvestQueue ++ [k] }
        raised := e.raised ||| 1, results := e.results } := rfl

/-- A slot is sealed: all it does to an event. -/
theorem sealSlot_eq (k : Fin Config.stackSlots) (cause : SealCause) (st : Stack) (e : Event) :
    sealSlot k cause st e =
      { st := e.st.sealedAs k cause st, raised := e.raised ||| sealRaises st, results := e.results } := by
  unfold sealSlot State.sealedAs sealRaises
  split
  · simp [Event.change, State.clearOpenSlot]
  · rfl

/-! ### One resolution -/

theorem Stack.resolveCount_eq (st : Stack) {out : SweepOutcome} (h : out ≠ .droppedClear) :
    st.resolveCount out = st.countedFor out := by
  cases out <;> simp_all [Stack.resolveCount, Stack.countedFor]

/-- The stack slot's part of a resolution: all it does to an event. -/
theorem resolveStack_eq (k : Fin Config.stackSlots) {out : SweepOutcome} (h : out ≠ .droppedClear) (e : Event) :
    resolveStack k out e =
      match e.st.slots[k] with
      | none => e
      | some st =>
        match st.drainsWith with
        | none => { e with st := e.st.setSlot k (some (st.countedFor out)) }
        | some c => enterSealed k c (st.countedFor out) e := by
  unfold resolveStack
  cases hs : e.st.slots[k] with
  | none => rfl
  | some st =>
    simp only [Stack.resolveCount_eq st h]
    have hp : (st.countedFor out).phase = st.phase := rfl
    have hn : (st.countedFor out).pending = st.pending - 1 := rfl
    simp only [hp, hn, Stack.drainsWith]
    cases st.phase with
    | draining c =>
      by_cases hd : st.pending ≤ 1
      · simp [hd, show st.pending - 1 = 0 by omega]
      · simp [hd, show st.pending - 1 ≠ 0 by omega, Event.change]
    | _ => rfl

/-- In a table without two entries of one number, taking an entry out takes out exactly its number. -/
theorem removeFirst_number {l : List SweepEntry} (h : (l.map SweepEntry.number).Nodup) (n : Word32) :
    removeFirst (fun x => decide (x.number = n)) l = l.filter fun x => decide (x.number ≠ n) := by
  rw [removeFirst_eq_filter]
  · congr 1; funext x; simp
  · rw [List.Nodup, List.pairwise_map] at h
    exact h.imp fun {a b} hab => by simp only [decide_eq_true_eq]; rintro ⟨rfl, h2⟩; exact hab h2.symm

/-- A resolution that is not a clear: all it does to an event. -/
theorem resolve_eq {out : SweepOutcome} (h : out ≠ .droppedClear) (counts : Option JobCounts) (e : SweepEntry)
    (ev : Event) (hd : DistinctNumbers ev.st) :
    resolve out counts e ev =
      { st := ev.st.resolvedAs e out, raised := ev.raised ||| resolutionRaises ev.st e
        results := ev.results ++ [e.result out counts] } := by
  have hr := removeFirst_number hd e.number
  unfold resolve
  simp only [h, if_false, resolveStack_eq _ h, Event.change, removeEntry, State.resolvedAs, resolutionRaises, hr]
  have hs : (abortJob e (State.unpinPilot
      { ev.st with sweeps := ev.st.sweeps.filter fun x => decide (x.number ≠ e.number) } e.pilot)).slots = ev.st.slots := by
    unfold abortJob; split <;> rfl
  simp only [hs]
  cases hk : ev.st.slots[e.slot] with
  | none => simp only [abortJob, State.unpinPilot, State.setPilot]; cases e.stage <;> simp
  | some st =>
    cases hdr : st.drainsWith with
    | none => simp only [abortJob, State.unpinPilot, State.setPilot]; cases e.stage <;> simp [hdr]
    | some c =>
      simp only [enterSealed_eq, abortJob, State.unpinPilot, State.setPilot, hdr]
      cases e.stage <;> simp [State.setSlot, State.setLane]

/-- The resolution of an entry at a clear: it leaves the table, and no stack slot changes. -/
theorem resolve_clear (counts : Option JobCounts) (e : SweepEntry) (ev : Event) :
    resolve .droppedClear counts e ev =
      { st := removeEntry e ev.st, raised := ev.raised, results := ev.results ++ [e.result .droppedClear counts] } := rfl

/-- What no resolution changes. -/
structure State.SameAside (s t : State) : Prop where
  ingest : t.ingest = s.ingest
  ring : t.ring = s.ring
  monitor : t.monitor = s.monitor
  fleets : t.fleets = s.fleets
  sweepCounter : t.sweepCounter = s.sweepCounter
  ports : t.ports = s.ports
  stackSerials : t.stackSerials = s.stackSerials
  reading : t.reading = s.reading
  alerts : t.alerts = s.alerts
  spread : t.spread = s.spread
  source : t.source = s.source
  record : t.record = s.record
  heldAlerts : t.heldAlerts = s.heldAlerts
  clock : t.clock = s.clock
  freeCount : t.freeCount = s.freeCount
  pending : t.pending = s.pending

theorem State.SameAside.refl (s : State) : s.SameAside s := by constructor <;> rfl

theorem State.SameAside.trans {s t u : State} (h : s.SameAside t) (g : t.SameAside u) : s.SameAside u := by
  constructor
  · rw [g.ingest, h.ingest]
  · rw [g.ring, h.ring]
  · rw [g.monitor, h.monitor]
  · rw [g.fleets, h.fleets]
  · rw [g.sweepCounter, h.sweepCounter]
  · rw [g.ports, h.ports]
  · rw [g.stackSerials, h.stackSerials]
  · rw [g.reading, h.reading]
  · rw [g.alerts, h.alerts]
  · rw [g.spread, h.spread]
  · rw [g.source, h.source]
  · rw [g.record, h.record]
  · rw [g.heldAlerts, h.heldAlerts]
  · rw [g.clock, h.clock]
  · rw [g.freeCount, h.freeCount]
  · rw [g.pending, h.pending]

theorem removeEntry_aside (e : SweepEntry) (s : State) : s.SameAside (removeEntry e s) := by
  unfold removeEntry abortJob
  cases e.stage <;> (constructor <;> rfl)

theorem resolveStack_aside (k : Fin Config.stackSlots) (out : SweepOutcome) (e : Event) :
    e.st.SameAside (resolveStack k out e).st := by
  unfold resolveStack
  split
  · exact .refl _
  · dsimp only
    split
    · split <;> (constructor <;> rfl)
    · constructor <;> rfl

/-- The frame of one resolution, whatever the table. -/
theorem resolve_aside (out : SweepOutcome) (counts : Option JobCounts) (e : SweepEntry) (ev : Event) :
    ev.st.SameAside (resolve out counts e ev).st := by
  unfold resolve
  dsimp only
  split
  · exact removeEntry_aside e ev.st
  · exact (removeEntry_aside e ev.st).trans (resolveStack_aside e.slot out
      { ev.change (removeEntry e) with results := (ev.change (removeEntry e)).results ++ [e.result out counts] })

theorem resolveStack_sweeps (k : Fin Config.stackSlots) (out : SweepOutcome) (e : Event) :
    (resolveStack k out e).st.sweeps = e.st.sweeps := by
  unfold resolveStack
  split
  · rfl
  · dsimp only
    split
    · split <;> rfl
    · rfl

/-- The table after one resolution. -/
theorem resolve_sweeps (out : SweepOutcome) (counts : Option JobCounts) (e : SweepEntry) (ev : Event) :
    (resolve out counts e ev).st.sweeps = removeFirst (fun x => decide (x.number = e.number)) ev.st.sweeps := by
  have h : (removeEntry e ev.st).sweeps = removeFirst (fun x => decide (x.number = e.number)) ev.st.sweeps := by
    unfold removeEntry abortJob; cases e.stage <;> rfl
  unfold resolve
  dsimp only
  split
  · exact h
  · rw [resolveStack_sweeps]; exact h

theorem resolveStack_results (k : Fin Config.stackSlots) (out : SweepOutcome) (e : Event) :
    (resolveStack k out e).results = e.results := by
  unfold resolveStack
  split
  · rfl
  · dsimp only
    split
    · split <;> rfl
    · rfl

/-- The results after one resolution. -/
theorem resolve_results (out : SweepOutcome) (counts : Option JobCounts) (e : SweepEntry) (ev : Event) :
    (resolve out counts e ev).results = ev.results ++ [e.result out counts] := by
  unfold resolve
  dsimp only
  split
  · rfl
  · rw [resolveStack_results]; rfl

/-! ### Many resolutions -/

/-- The frame and the results of a run of resolutions. -/
theorem resolveList_aside (out : SweepOutcome) (l : List SweepEntry) (ev : Event) :
    ev.st.SameAside (l.foldl (fun ev e => resolve out none e ev) ev).st ∧
      (l.foldl (fun ev e => resolve out none e ev) ev).results = ev.results ++ l.map fun e => e.result out none := by
  induction l generalizing ev with
  | nil => exact ⟨.refl _, by simp⟩
  | cons e l ih =>
    have h := ih (resolve out none e ev)
    exact ⟨(resolve_aside out none e ev).trans h.1, by rw [List.foldl_cons, h.2, resolve_results]; simp⟩

/-- The table after a run of resolutions, where no two entries have one number. -/
theorem resolveList_sweeps (out : SweepOutcome) (l : List SweepEntry) (ev : Event) (hd : DistinctNumbers ev.st) :
    (l.foldl (fun ev e => resolve out none e ev) ev).st.sweeps =
      ev.st.sweeps.filter fun x => decide (x.number ∉ l.map SweepEntry.number) := by
  induction l generalizing ev with
  | nil => simp
  | cons e l ih =>
    have hs := resolve_sweeps out none e ev
    have hd' : DistinctNumbers (resolve out none e ev).st := by
      unfold DistinctNumbers at *
      rw [hs]
      exact hd.sublist ((removeFirst_sublist _ _).map _)
    rw [List.foldl_cons, ih _ hd', hs, removeFirst_number hd, List.filter_filter]
    congr 1
    funext x
    simp [Bool.and_comm]

/-- All entries that satisfy a condition are resolved in table order: frame, results and table. -/
theorem resolveAll_spec (p : SweepEntry → Bool) (out : SweepOutcome) (ev : Event) :
    ev.st.SameAside (resolveAll p out ev).st ∧
      (resolveAll p out ev).results = ev.results ++ (ev.st.sweeps.filter p).map (fun e => e.result out none) ∧
      (DistinctNumbers ev.st → (resolveAll p out ev).st.sweeps = ev.st.sweeps.filter fun e => !p e) := by
  have h := resolveList_aside out (ev.st.sweeps.filter p) ev
  refine ⟨h.1, h.2, fun hd => ?_⟩
  unfold resolveAll
  rw [resolveList_sweeps _ _ _ hd]
  apply List.filter_congr
  intro x hx
  rw [Bool.eq_iff_iff]
  simp only [List.mem_map, List.mem_filter, decide_eq_true_eq, Bool.not_eq_true']
  constructor
  · intro hn
    by_contra hp
    exact hn ⟨x, ⟨hx, by simpa using hp⟩, rfl⟩
  · rintro hp ⟨y, ⟨hy, hpy⟩, hxy⟩
    have : y = x := List.inj_on_of_nodup_map hd hy hx hxy
    subst this
    simp [hp] at hpy

/-- Drops: frame, results and table of the resolutions; SWEEP_DROPPED is raised where there is one. -/
theorem dropAll_spec (p : SweepEntry → Bool) (out : SweepOutcome) (ev : Event) :
    ev.st.SameAside (dropAll p out ev).st ∧
      (dropAll p out ev).results = ev.results ++ (ev.st.sweeps.filter p).map (fun e => e.result out none) ∧
      (DistinctNumbers ev.st → (dropAll p out ev).st.sweeps = ev.st.sweeps.filter fun e => !p e) ∧
      (dropAll p out ev).raised =
        if ev.st.sweeps.any p = true then (resolveAll p out ev).raised ||| Cause.sweepDropped.set
        else (resolveAll p out ev).raised := by
  have h := resolveAll_spec p out ev
  unfold dropAll
  simp only [Event.addCauseIf_st, Event.addCauseIf_results, Event.addCauseIf_raised]
  exact ⟨h.1, h.2.1, h.2.2, trivial⟩

end Sys2Proof.Machine
end

