-- ==== Sys2Proof/Laws/Ring.lean ====
section
/-! SUPPORT. What appending rows does to the Sample Ring (R18, R19): departures and the ring's reports change sweeps and
stacks alone, the hand-off the monitor alone. -/

namespace Sys2Proof.Machine

/-- The arrival report changes the table, pilots, lanes, stacks and the harvest queue, nothing else. -/
theorem arrivalReport_aside (n : Ssn) (wasEmpty : Bool) (ev : Event) :
    ev.st.SameAside (arrivalReport n wasEmpty ev).st := by
  unfold arrivalReport
  dsimp only
  have h1 : ev.st.SameAside (if wasEmpty = true then firstArrival n ev else ev).st := by
    split
    · exact (dropAll_spec _ _ _).1
    · exact .refl _
  refine h1.trans (State.SameAside.trans ?_ (resolveAll_spec _ _ _).1)
  constructor <;> rfl

/-- The hand-off of a row changes the monitor alone. -/
theorem handRow_st (ssn : Ssn) (gap : Bool) (words : List RingWord) (e : Event) :
    (handRow ssn gap words e).st =
      { e.st with monitor := e.st.monitor.takeRow e.st.ingest.channels ssn gap words } := by
  simp [handRow]

/-- The departure of a full ring's oldest row. -/
theorem departOldest_ring (ev : Event) (h : ev.st.ring.length ≤ Config.ringRows) :
    (departOldest ev).st.ring = ev.st.ring.drop (ev.st.ring.length + 1 - Config.ringRows) := by
  have hR : Config.ringRows = 65536 := rfl
  unfold departOldest
  split
  · rename_i hf
    have hl : ev.st.ring.length = 65536 := by omega
    cases hr : ev.st.ring with
    | nil => simp [hr] at hl
    | cons r rest =>
      have := ((dropAll_spec (fun e => e.isDroppable && ssnAtOrBefore e.t0 r.ssn) .droppedOverrun
        (ev.change fun s => { s with ring := rest })).1).ring
      rw [hr] at hl
      simp only [hR, show (r :: rest).length + 1 - 65536 = 1 by omega, List.drop_succ_cons, List.drop_zero]
      exact this
  · rw [show ev.st.ring.length + 1 - Config.ringRows = 0 by omega, List.drop_zero]

/-- The departure leaves the ingest counters, the origin and the monitor. -/
theorem departOldest_ingest (ev : Event) :
    (departOldest ev).st.ingest = ev.st.ingest ∧ (departOldest ev).st.monitor = ev.st.monitor := by
  unfold departOldest
  split
  · split
    · exact ⟨rfl, rfl⟩
    · rename_i r rest _
      have h := (dropAll_spec (fun e => e.isDroppable && ssnAtOrBefore e.t0 r.ssn) .droppedOverrun
        (ev.change fun s => { s with ring := rest })).1
      exact ⟨h.ingest, h.monitor⟩
  · exact ⟨rfl, rfl⟩

/-- One appended row: the ring holds the newest 65,536 rows with it, E is one past it, and the monitor has taken it. -/
theorem appendRow_spec (gap : Bool) (ev : Event) (words : List RingWord) (h : ev.st.ring.length ≤ Config.ringRows) :
    (appendRow gap ev words).st.ring = newestRows (ev.st.ring ++ [{ ssn := nextSsn ev.st, words := words }]) ∧
      (appendRow gap ev words).st.ingest =
        { ev.st.ingest with
          origin := ev.st.ingest.origin.map fun o => { o with expected := nextSsn ev.st + 1 } } ∧
      (appendRow gap ev words).st.monitor =
        ev.st.monitor.takeRow ev.st.ingest.channels (nextSsn ev.st) gap words := by
  have ha := arrivalReport_aside (nextSsn ev.st) ev.st.ring.isEmpty
    ((departOldest ev).change (storeRow (nextSsn ev.st) words))
  have hd := departOldest_ingest ev
  unfold appendRow
  dsimp only
  rw [handRow_st]
  refine ⟨?_, ?_, ?_⟩
  · rw [ha.ring]
    simp only [Event.change, storeRow, departOldest_ring ev h, newestRows, List.length_append, List.length_cons,
      List.length_nil, Nat.zero_add]
    have hR : Config.ringRows = 65536 := rfl
    rw [List.drop_append_of_le_length (by omega)]
  · rw [ha.ingest]; simp only [Event.change, storeRow, hd.1]
  · rw [ha.ingest, ha.monitor]; simp only [Event.change, storeRow, hd.1, hd.2]

end Sys2Proof.Machine
end

