-- ==== Sys2Proof/WellFormed.lean ====
section
/-! DEFINITION. Which commands name a part of the block that exists: a pilot slot 0..15 (R40), a stack slot 0..11
(R122), a lane 0..3 (R98), and for messages and requests a link that has them (R169, R175: "The Spread Link sends
nothing"). -/

namespace Sys2Proof

/-- The links that carry requests and messages: the Source Link and the Record Link (R165, R169). -/
def LinkId.hasRequests : LinkId → Bool
  | .spread => false
  | .source => true
  | .record => true

/-- The command names what exists. -/
def Instr.wellFormed : Instr → Bool
  | .messageSend l => l.hasRequests
  | .unknownKind l => l.hasRequests
  | .fillTimeout p => decide (p < Config.pilots)
  | .commitCompletion p => decide (p < Config.pilots)
  | .lingerExpiry k => decide (k < Config.stackSlots)
  | .correlateCompletion l => decide (l < Config.lanes)
  | .mergeCompletion l => decide (l < Config.lanes)
  | .powerOn | .frameReceipt _ _ | .linkUp _ | .linkDown _ | .rowBlock | .streamStart => true
  | .pilotOpen | .pilotPart | .pilotClose | .pilotQuery | .pilotPurge => true
  | .sweepAnnounce | .sweepReport | .reportTimerExpiry _ | .sweepCancel | .vpEnd | .grant => true
  | .setupStream | .channelSet | .channelRead | .fleetSet | .fleetRead => true
  | .stackList | .stackStatus | .stackSeal | .recordRead | .recordHeader | .trace | .stackRelease => true
  | .alertMask | .alertAck | .deviceStatus | .capabilityRead | .deviceClear => true

end Sys2Proof
end

