-- ==== Sys2Proof/Tests/Slice0.lean ====
section
/-! SUPPORT. The model's own tests: ill-formed commands that WellFormed refuses, the spec's worked numbers, and for every
statement with hypotheses a concrete state and operands that meet them. -/

namespace Sys2Proof.Tests

open Sys2Proof Sys2Proof.Machine

/-! ### Helpers -/

/-- The state a command leaves. -/
def after (c : Instr) (s : State) : State :=
  match exec c s with
  | .next t => t
  | _ => State.reset

/-- The Spread Link up, with one frame in its buffer. -/
def withSpread (kind tag : Byte) (p : List Byte) (s : State) : State :=
  { s with spread := { s.spread with up := true, input := [{ kind := kind, tag := tag, payload := p }] } }

/-- The Source Link up, with one request in its buffer. -/
def withSource (kind tag : Byte) (p : List Byte) (s : State) : State :=
  { s with source := { s.source with up := true, input := [{ kind := kind, tag := tag, payload := p }] } }

/-- The Record Link up without a read in hand, with one request in its buffer. -/
def withRecord (kind tag : Byte) (p : List Byte) (s : State) : State :=
  { s with
    record := { s.record with up := true, input := [{ kind := kind, tag := tag, payload := p }] }, reading := none }

/-- The outcome code of the last REPLY on a link. -/
def lastCode (l : PartnerLink) : Option Code :=
  match l.output.getLast? with
  | some (.reply _ _ c _) => some c
  | _ => none

/-- The result bytes of the last REPLY on a link. -/
def lastFields (l : PartnerLink) : List Byte :=
  match l.output.getLast? with
  | some (.reply _ _ _ r) => r
  | _ => []

/-! ### Ill-formed commands are refused -/

theorem test_spread_sends_nothing : (Instr.messageSend .spread).wellFormed = false := by decide
theorem test_spread_takes_no_request : (Instr.unknownKind .spread).wellFormed = false := by decide
theorem test_no_pilot_16_fills : (Instr.fillTimeout 16).wellFormed = false := by decide
theorem test_no_pilot_16_commits : (Instr.commitCompletion 16).wellFormed = false := by decide
theorem test_no_slot_12_lingers : (Instr.lingerExpiry 12).wellFormed = false := by decide
theorem test_no_lane_4_correlates : (Instr.correlateCompletion 4).wellFormed = false := by decide
theorem test_no_lane_4_merges : (Instr.mergeCompletion 4).wellFormed = false := by decide
theorem test_last_of_each_table : (Instr.fillTimeout 15).wellFormed = true ∧
    (Instr.lingerExpiry 11).wellFormed = true ∧ (Instr.mergeCompletion 3).wellFormed = true := by decide

/-! ### The spec's worked numbers -/

/-- R16's examples. -/
theorem test_samples_normalise :
    (normalise ⟨5000, 1, true⟩).x = 80000 ∧ (normalise ⟨-1250, 2, true⟩).x = -5000 ∧
      normalise ⟨8388607, 0, true⟩ = { x := 536870848, clipped := true, dropout := false } := by decide

/-- R31's examples. -/
theorem test_levels : [81920000, 614400000, 7560000000, 0].map intervalLevel = [4, 36, 450, 0] := by decide

/-- Section 3.5's examples. -/
theorem test_auto_shift : [1024, 2048000000].map autoShift = [0, 14] := by decide

/-- Section 5.7, Report A: the repeated id 4 is ignored; PHASE_PEAK and DISTORTION. -/
theorem test_report_a :
    evaluateReport
      { listen := 256, shift := 0, weight := .plain, burst := 0, clipLimit := 0, peakPhase := 200, meanPhase := 100,
        distortion := 300, minForce := 60, vibrators := 3, policy := .reject, noReport := .fail, reportTimeout := 4000 }
      [⟨4, 150, 60, 220, 72⟩, ⟨5, 180, 95, 310, 70⟩, ⟨4, 400, 300, 900, 10⟩, ⟨6, 2500, 80, 250, 65⟩] =
      { missing := false, phasePeak := true, phaseMean := false, distortion := true, force := false } := by decide

/-- Section 6.4, scaling: shift 20, then the two sums that saturate. -/
theorem test_scaled_sums :
    [123456789012, -123456789012, 1572864, -1572864, 1048575, 524287].map (correlatedValue 20) =
        [117738, -117738, 2, -2, 1, 0] ∧
      correlatedValue 10 5000000000000 = 2147483647 ∧ saturationCount 10 [5000000000000] = 1 ∧
      correlatedValue 0 (-3000000000) = -2147483648 ∧ saturationCount 0 [-3000000000] = 1 := by decide

/-- Section 6.4, window power and weights. -/
theorem test_weights :
    windowPower (List.replicate 3 ⟨3000000, false, false⟩) 3 = 33489 ∧
      windowPower (List.replicate 3 ⟨-3000000, false, false⟩) 3 = 33856 ∧
      [33489, 33856, 20000, 1000000, 10000].map (traceWeight .diversity) = [32062, 31714, 53687, 1073, 65535] := by
  decide

/-- Section 8.6: the records of channels 12 and 13 at lag 0 after three merges, and their MEAN values. -/
theorem test_stacked_records :
    let c : ChannelStack := ChannelStack.opening 1
    let one : TraceRecord := ⟨none, 53687, [117738]⟩
    let three : TraceRecord := ⟨none, 65535, [120000]⟩
    mergeChannel (mergeChannel (mergeChannel c one) ⟨none, 1073, [900000]⟩) three =
        { acc := [15150900006], weightSum := 120295, accepted := 3, edited := 0, causes := ⟨false, false, false⟩ } ∧
      mergeChannel (mergeChannel (mergeChannel c one) ⟨some .burst, 0, []⟩) three =
        { acc := [14185200006], weightSum := 119222, accepted := 2, edited := 1, causes := ⟨false, false, true⟩ } ∧
      normalisedSample .mean 0 120295 15150900006 = 125948 ∧
      normalisedSample .mean 0 119222 14185200006 = 118981 ∧
      normalisedSample .sum 8 120295 15150900006 = 59183203 ∧
      normalisedSample .sum 8 119222 14185200006 = 55410938 := by decide

/-- The check value of the CRC-32 that R163 names. -/
theorem test_crc : crc32 [0x31, 0x32, 0x33, 0x34, 0x35, 0x36, 0x37, 0x38, 0x39] = 0xCBF43926#32 := by decide +kernel

/-- Section 3.12: PILOT PURGE of {2, 7, 9, 11, 14}. -/
theorem test_purge :
    let slot : PilotPhase → Nat → PilotSlot := fun ph pins =>
      { phase := ph, generation := 0, pins := pins, lastResult := .zeroEnergy }
    let empty := Vector.replicate Config.pilots (slot .empty 0)
    let v := (((empty.set 2 (slot (.ready 1024 2 [] 9) 2)).set 7 (slot (.ready 1024 2 [] 9) 0)).set 9
      (slot (.filling 8192 2 [] ⟨2000, 2000⟩) 0)).set 11 (slot (.committing 2048 2 []) 0)
    lastFields (after .pilotPurge (withSource 20 1 [0x4A, 0x84] { State.reset with pilots := v })).source =
      [0x02, 0x80, 0x08, 0x04] := by decide

/-- Section 10.7, events 1, 3, 4 and 8, at frame tag 40. -/
theorem test_alerts :
    let s0 : State := { State.reset with record := { PartnerLink.reset with up := true, sequence := 40 } }
    let s1 := s0.raise Cause.vpSealed.set
    let s2 := (after .alertMask (withRecord 42 1 [4] s1)).raise Cause.channelChange.set
    let s3 := after .alertMask (withRecord 42 2 [0] s2)
    s3.record.output.filter (fun m => decide (m.kind = 130)) = [.alert 40 1, .alert 41 5] := by decide

/-- Section 1.10, its last event, at C = 1: a gap of three rows is filled before the two of the block. -/
theorem test_gap_is_filled :
    let s : State := { State.reset with
      ingest := { Ingest.reset with channels := 1, origin := some ⟨20000, 20000⟩ } }
    let t := after .rowBlock (withSpread 1 0
      (enc32 20003 ++ [2, 0, 1] ++ [0, 0, 5, 0x83] ++ [0, 0, 6, 0x83]) s)
    t.ring.map RingRow.ssn = [20000, 20001, 20002, 20003, 20004] ∧ t.ingest.gapRows = 3 ∧ t.ingest.dropouts = 0 ∧
      t.ingest.origin = some ⟨20000, 20005⟩ ∧ t.alerts.pending = 8 := by decide

/-! ### A state in which every statement finds something to do

One row short of nothing: two channels, a ring of two rows, pilots in every state, six sweeps in every stage, stack slots
in every state, three lanes at work and one port waited for. -/

/-- A word of the ring. -/
def word0 : RingWord := { x := 80000, clipped := false, dropout := false }

/-- Pilot slots: 0 READY and pinned six times, 1 FILLING, 2 COMMITTING, 3 READY and free, 4 COMMITTING zeros. -/
def pilots0 : Vector PilotSlot Config.pilots :=
  ((((State.reset.pilots.set 0
    { phase := .ready 1024 2 [3, 4] 25, generation := 1, pins := 6, lastResult := .committed }).set 1
    { phase := .filling 1024 2 [7] ⟨2000, 2500⟩, generation := 0, pins := 0, lastResult := .none }).set 2
    { phase := .committing 1024 2 [3, 4], generation := 0, pins := 0, lastResult := .none }).set 3
    { phase := .ready 1024 2 [3, 4] 25, generation := 1, pins := 0, lastResult := .committed }).set 4
    { phase := .committing 1024 2 [0, 0], generation := 0, pins := 0, lastResult := .none }

/-- A defined fleet. -/
def fleet0 (k : Option (Fin Config.stackSlots)) (linger : Nat) : Fleet :=
  { defined := true, params := { FleetParams.reset with listen := 256, linger := linger }, lastT0 := some 5
    openSlot := k }

/-- Fleets: 0 with slot 0 open, 1 without an open slot, 2 with slot 3 lingering, 3 with slot 6 open and linger 0. -/
def fleets0 : Vector Fleet Config.fleets :=
  (((State.reset.fleets.set 0 (fleet0 (some 0) 1000)).set 1 (fleet0 none 1000)).set 2 (fleet0 (some 3) 1000)).set 3
    (fleet0 (some 6) 0)

/-- A stack slot of two channels. -/
def stack0 (phase : StackPhase) (fleet : Fin Config.fleets) (pending : Nat) : Stack :=
  { phase := phase, fleet := fleet, vp := 9, serial := 1, listen := 256, interval := 2, channels := 2, fold := 1,
    pending := pending, qcKept := 0, qcRejected := 0, dropped := 0, firstT0 := some 5, lastT0 := some 5, tag := 3,
    corrSat := false
    records := List.replicate 2
      { acc := List.replicate 256 7, weightSum := 2, accepted := 1, edited := 0, causes := EditSet.empty } }

/-- Stack slots: 0 OPEN, 1 SEALED, 2 HARVESTING, 3 LINGER, 4 DRAINING, 6 OPEN with nothing pending, the rest FREE. -/
def slots0 : Vector (Option Stack) Config.stackSlots :=
  (((((State.reset.slots.set 0 (some (stack0 .opened 0 5))).set 1
    (some (stack0 (.sealed .fleetMoved 0) 0 0))).set 2 (some (stack0 (.harvesting .recorderSeal) 1 0))).set 3
    (some (stack0 (.linger ⟨1000, 1500⟩) 2 0))).set 4 (some (stack0 (.draining .fleetMoved) 4 1))).set 6
    (some (stack0 .opened 3 0))

/-- The parameter copy of the sweeps. -/
def copy0 : SweepCopy :=
  { listen := 256, shift := 0, weight := .plain, burst := 0, clipLimit := 0, peakPhase := 200, meanPhase := 100,
    distortion := 300, minForce := 60, vibrators := 1, policy := .reject, noReport := .fail, reportTimeout := 4000 }

/-- A sweep of stack slot 0. -/
def sweep0 (number : Word32) (stage : Stage) : SweepEntry :=
  { number := number, fleet := 0, vp := 9, slot := 0, pilot := 0, t0 := 5, pilotLength := 1024, dataRow := 6,
    copy := copy0, dataComplete := true, qc := .pass, failSet := FailSet.empty, stage := stage, timer := none }

/-- Sweeps: 0 CORRELATING, 1 waiting for its report, 2 MERGING, 3 waiting for the port, 4 READY, 5 of the DRAINING slot. -/
def sweeps0 : List SweepEntry :=
  [sweep0 0 (.correlating 0), { sweep0 1 .waiting with qc := .pending, timer := some ⟨4000, 4500⟩ },
    sweep0 2 (.merging 1), sweep0 3 (.merging 2), sweep0 4 .ready,
    { sweep0 5 .waiting with slot := 4, qc := .pending, timer := some ⟨4000, 4600⟩ }]

/-- The job of a sweep of stack slot 0. -/
def job0 (number : Word32) : Job :=
  { sweep := number, slot := 0, t0 := 5, pilotLength := 2, pilot := 0, listen := 1, shift := 0, weight := .plain,
    burst := 0, clipLimit := 0, qc := .pass, noReport := .fail
    snapshot := [{ active := true, monitor := .normal }, { active := false, monitor := .normal }] }

/-- A scratch of two channels. -/
def scratch0 : Scratch :=
  { records := [⟨none, 1, [5, 6]⟩, ⟨some .inactive, 0, []⟩], counts := { edited := 0, inactive := 1, saturated := 0 } }

/-- The whole state. -/
def stand : State :=
  { State.reset with
    clock := 500
    ingest := { Ingest.reset with channels := 2, origin := some ⟨5, 7⟩ }
    ring := [⟨5, [word0, word0]⟩, ⟨6, [word0, word0]⟩]
    pilots := pilots0, fleets := fleets0, sweeps := sweeps0, sweepCounter := 6
    lanes := ((State.reset.lanes.set 0 (.correlating (job0 0))).set 1 (.merging (job0 2) scratch0)).set 2
      (.mergeWait (job0 3) scratch0)
    slots := slots0
    ports := State.reset.ports.set 0 { holder := some 1, waiting := [2] }
    harvestQueue := [1], stackSerials := 2, sealOrders := 1 }

/-! ### Witnesses: invariants -/

theorem stand_ring : RingInv stand := by
  refine ⟨by decide, by decide, ?_, ⟨rfl, rfl, trivial⟩, by decide⟩
  simp [stand, RingWord.ok, word0, Ingest.reset]

theorem reset_channels_ok : ∀ c ∈ State.reset.monitor.table.toList, c = Channel.reset := by
  intro c hc
  simpa [State.reset, Monitor.reset] using hc

theorem stand_monitor : MonitorInv stand := by
  have h := reset_channels_ok
  refine ⟨fun c hc => ?_, fun c hc => ?_, by decide, fun _ => rfl⟩
  · rw [h c hc]; simp [Channel.ok, Channel.reset]
  · rw [h c (List.mem_of_mem_drop hc)]; rfl

theorem stand_distinct : DistinctNumbers stand := by
  unfold DistinctNumbers; decide

theorem stand_fresh : FreshNumber stand := by
  unfold FreshNumber; decide

theorem stand_sweeps : SweepInv stand := by
  unfold SweepInv SweepEntry.ok; decide

theorem stand_account : AccountInv stand := by
  unfold AccountInv; decide

/-- `stand` with a sweep that merges and one that waits for its data-complete row, 1,278 rows after its T0. -/
def waiting : State :=
  { stand with
    sweeps :=
      [{ sweep0 2 (.merging 1) with dataRow := 1283 },
        { sweep0 1 .waiting with dataRow := 1283, dataComplete := false, qc := .pending }] }

theorem waiting_history : HistoryInv waiting := by
  refine ⟨stand_ring, by unfold DistinctNumbers; decide, ⟨?_, by decide, ?_⟩, ?_⟩
  · intro p
    fin_cases p <;> trivial
  · unfold windowInRange; decide
  · show ∀ e ∈ waiting.sweeps, e.isDroppable = true → ssnAtOrBefore 5 e.t0 = true ∧
      (e.dataComplete = true ↔ (e.t0 - 5).toNat + (e.pilotLength + e.copy.listen - 2) < 2)
    decide

theorem stand_claims : ClaimInv stand := by
  refine ⟨stand_distinct, by decide, fun k => ?_⟩
  fin_cases k <;> first
    | exact rfl
    | exact ⟨rfl, by decide, by decide⟩

theorem stand_stacks : StackInv stand := by
  refine ⟨fun fl k h => ?_, fun k => ?_, by decide, by decide, trivial⟩
  · have hk : some k = (stand.fleets[fl]).openSlot := h.symm
    fin_cases fl <;> first
      | exact nomatch (show some k = none from hk)
      | (obtain rfl : k = 0 := Option.some.inj hk; exact ⟨rfl, rfl⟩)
      | (obtain rfl : k = 3 := Option.some.inj hk; exact ⟨rfl, rfl⟩)
      | (obtain rfl : k = 6 := Option.some.inj hk; exact ⟨rfl, rfl⟩)
  · fin_cases k <;> first
      | trivial
      | exact fun _ => rfl
      | exact fun h => nomatch (show false = true from h)

theorem stand_lanes : LaneInv stand := by
  refine ⟨stand_distinct, ?_, ?_, ?_⟩
  · intro l
    fin_cases l
    · exact ⟨sweep0 0 (.correlating 0), by decide, rfl, rfl, rfl⟩
    · exact ⟨⟨sweep0 2 (.merging 1), by decide, rfl, rfl, rfl⟩, rfl⟩
    · exact ⟨⟨sweep0 3 (.merging 2), by decide, rfl, rfl, rfl⟩, by decide⟩
    · exact (by decide : ∀ e ∈ stand.sweeps, e.lane ≠ some 3)
  · intro e he
    simp only [stand, sweeps0, List.mem_cons, List.not_mem_nil, or_false] at he
    rcases he with rfl | rfl | rfl | rfl | rfl | rfl
    · exact ⟨by decide, job0 0, rfl, rfl⟩
    · trivial
    · exact ⟨by decide, job0 2, .inr ⟨scratch0, rfl⟩, rfl⟩
    · exact ⟨by decide, job0 3, .inl ⟨scratch0, rfl⟩, rfl⟩
    · trivial
    · trivial
  · intro k
    by_cases hk : k = 0
    · subst hk
      refine ⟨by decide, ?_, job0 2, scratch0, rfl, rfl⟩
      intro l hl
      have : l = 2 := by simpa [stand] using hl
      subst this
      exact ⟨job0 3, scratch0, rfl, rfl⟩
    · have h : stand.ports[k] = MergePort.reset := by
        revert k; decide
      rw [h]
      exact ⟨by decide, by simp [MergePort.reset], rfl⟩

/-! ### Witnesses: the machine as a whole

Each theorem names its statement and gives a state and operands that meet the statement's hypotheses together. -/

theorem witness_step_runs : ({ stand with pending := [.grant, .powerOn] } : State).pending = .grant :: [.powerOn] := rfl

theorem witness_ring : RingInv stand ∧ step stand = .next (idle stand) := ⟨stand_ring, rfl⟩
theorem witness_monitor : RingInv stand ∧ MonitorInv stand ∧ step stand = .next (idle stand) :=
  ⟨stand_ring, stand_monitor, rfl⟩
/-- A read in hand whose header has been sent, and one whose header waits. -/
theorem witness_links :
    let r : ReadInHand :=
      { slot := 2, first := 0, count := 1, mode := .mean, shift := 0, width := .w16, handed := 2, tag := 7 }
    let s := fun output => { withRecord 0 0 [] stand with
      reading := some r, record := { PartnerLink.reset with up := true, output := output }, pending := [.trace] }
    LinkInv (s []) ∧ LinkInv (s [.alert 0 0]) ∧ ∃ t, step (s []) = .next t := by
  refine ⟨?_, ?_, _, rfl⟩ <;> refine ⟨?_, ?_, ?_, ?_, ?_, ?_, ?_, fun r h => ?_⟩ <;> first
    | decide
    | (cases h; decide)
theorem witness_sweeps : SweepInv stand ∧ step stand = .next (idle stand) := ⟨stand_sweeps, rfl⟩
theorem witness_account : AccountInv stand ∧ step stand = .next (idle stand) := ⟨stand_account, rfl⟩
theorem witness_history : HistoryInv waiting ∧ FreshNumber waiting ∧ step waiting = .next (idle waiting) :=
  ⟨waiting_history, by unfold FreshNumber; decide, rfl⟩
theorem witness_claims : ClaimInv stand ∧ StackInv stand ∧ FreshNumber stand ∧ step stand = .next (idle stand) :=
  ⟨stand_claims, stand_stacks, stand_fresh, rfl⟩
theorem witness_stacks : StackInv stand ∧ step stand = .next (idle stand) := ⟨stand_stacks, rfl⟩
theorem witness_lanes : SweepInv stand ∧ LaneInv stand ∧ FreshNumber stand ∧ step stand = .next (idle stand) :=
  ⟨stand_sweeps, stand_lanes, stand_fresh, rfl⟩

theorem witness_settings :
    happens (some .grant) stand (after .grant stand) ∧ happens none stand (idle stand) ∧
      (∀ c ∈ [Instr.powerOn, .setupStream, .alertMask, .fleetSet, .channelSet], (some .grant : Option Instr) ≠ some c) ∧
      (none : Option Instr) ≠ some .powerOn :=
  ⟨rfl, ⟨rfl, rfl⟩, by decide, by decide⟩

theorem witness_sealed_stacks :
    (∃ t, happens (some .recordRead) (withRecord 40 1 [1, 0, 0, 1, 0, 0, 16] stand) t) ∧
      happens none stand (idle stand) ∧ (some Instr.recordRead : Option Instr) ≠ some .powerOn ∧
      (some Instr.recordRead : Option Instr) ≠ some .stackRelease ∧
      (some Instr.recordRead : Option Instr) ≠ some .deviceClear ∧
      stand.slots[1] = some (stack0 (.sealed .fleetMoved 0) 0 0) ∧
      (stack0 (.sealed .fleetMoved 0) 0 0).isSealed = true ∧ entriesOf stand 1 = 0 ∧
      (∀ fl : Fin Config.fleets, (stand.fleets[fl]).openSlot ≠ some 1) ∧
      ∀ (l : Fin Config.lanes) (j : Job) (sc : Scratch), stand.lanes[l] = .merging j sc → j.slot ≠ 1 := by
  refine ⟨⟨_, rfl⟩, ⟨rfl, rfl⟩, by decide, by decide, by decide, rfl, rfl, by decide, by decide, fun l j sc h => ?_⟩
  have h' : Lane.merging j sc = stand.lanes[l] := h.symm
  fin_cases l <;> first
    | exact nomatch (show Lane.merging j sc = .correlating (job0 0) from h')
    | exact nomatch (show Lane.merging j sc = .mergeWait (job0 3) scratch0 from h')
    | exact nomatch (show Lane.merging j sc = .idle from h')
    | (obtain ⟨rfl, rfl⟩ := Lane.merging.inj (show Lane.merging j sc = .merging (job0 2) scratch0 from h'); decide)

/-- An announcement of fleet 0 that joins, an idle step, and the power-on counter. -/
theorem witness_sweep_numbers :
    let s := withSource 21 1 (enc8 0 ++ encWord (9 : Word32) ++ enc8 3 ++ encWord (6 : Ssn)) stand
    let t := after .sweepAnnounce s
    happens none stand (idle stand) ∧ exec .sweepAnnounce s = .next t ∧
      (some Instr.sweepAnnounce : Option Instr) ≠ some .powerOn ∧
      t.source.output = s.source.output ++ [.reply 1 21 .done (lastFields t.source)] :=
  ⟨⟨rfl, rfl⟩, rfl, by decide, by decide⟩

/-! ### Witnesses: frames and arithmetic -/

theorem witness_frames :
    (List.replicate 32832 (0 : Byte)).length ≤ 32832 ∧
      (readFrame (frameBytes 41 7 [3])).isSome = true ∧ (1 : Byte) ≠ 0 :=
  ⟨by rw [List.length_replicate], by decide +kernel, by decide⟩

/-- A header and a trace with every field at the end of its range, and samples at both ends of each width. -/
theorem witness_messages :
    let h : RecordHeader :=
      { vp := 1, fleet := 7, serial := 2, cause := some .fleetMoved, fold := 255, qcRejected := 3, qcKept := 255,
        dropped := 4, firstT0 := some 5, lastT0 := none, listen := 65535, interval := 3, channels := 65535,
        corrSat := true, mode := .sum, shift := 255, width := .w24, first := 65535, count := 255 }
    let m : SampleWidth → TraceMessage := fun w =>
      { channel := 65535, label := 6, accepted := 255, edited := 255, causes := ⟨true, false, true⟩,
        weightSum := 4294967295, isEmpty := false, outSat := true, saturated := 65535, width := w,
        samples := [-(2 ^ (w.bits - 1)), 2 ^ (w.bits - 1) - 1] }
    (h.fold < 256 ∧ h.qcKept < 256 ∧ h.listen < 65536 ∧ h.channels < 65536 ∧ h.shift < 256 ∧ h.first < 65536 ∧
      h.count < 256) ∧
      ∀ w ∈ [SampleWidth.w16, .w24, .w32], (m w).channel < 65536 ∧ (m w).accepted < 256 ∧ (m w).edited < 256 ∧
        (m w).weightSum < 4294967296 ∧ (m w).saturated < 65536 ∧ (m w).samples[0]? = some (-(2 ^ (w.bits - 1))) ∧
        (m w).samples[1]? = some (2 ^ (w.bits - 1) - 1) := by decide

/-- The counts of a MERGED result at the ends of their fields. -/
theorem witness_result_counts :
    let c : JobCounts := { edited := 65535, inactive := 65535, saturated := 8388608 }
    c.edited < 65536 ∧ c.inactive < 65536 := by decide

theorem witness_samples :
    (3 : Nat) ≤ 3 ∧ (-8388608 : Int) ≤ -8388608 ∧ (-8388608 : Int) ≤ 8388607 ∧
      (⟨-8388608, 3, true⟩ : SampleWord).valid = true ∧ (⟨8388607, 0, false⟩ : SampleWord).valid = false := by decide

/-- An active normal channel, and its window of three words for a pilot of two samples and a listen length of two. -/
theorem witness_correlation :
    let j := { job0 0 with listen := 2 }
    [word0, word0, word0].length + 1 = [(3 : Int), 4].length + j.listen ∧
      traceCause j { active := true, monitor := .normal } [word0, word0, word0] = none ∧
      traceCause j { active := true, monitor := .dead } [word0, word0, word0] ≠ none ∧
      [(3 : Int), 4].length ≤ 16384 ∧ (∀ w ∈ [word0, word0, word0], w.x.natAbs ≤ 536870912) ∧
      (∀ p ∈ [(3 : Int), 4], p.natAbs ≤ 32768) ∧ 1 < j.listen := by decide

theorem witness_window_power :
    (∀ w ∈ [word0, ⟨-536870912, true, false⟩], w.x.natAbs ≤ 536870912) ∧ [word0, word0].length ≤ 2 ∧
      traceCause (job0 0) { active := false, monitor := .normal } [word0] ≠ none ∧
      traceCause (job0 0) { active := true, monitor := .normal } [word0] = none ∧ (job0 0).weight = .plain ∧
      traceCause { job0 0 with weight := .diversity } { active := true, monitor := .normal } [word0] = none ∧
      (16384 : Nat) ≤ 1073741824 ∧ (1073741824 : Nat) ≤ 1073741824 := by decide

theorem witness_merges_commute :
    ∃ base : Ssn, ((4294967295 : Ssn) - base).toNat < 2147483648 ∧ ((3 : Ssn) - base).toNat < 2147483648 ∧
      (∀ o, (some 5 : Option Ssn) = some o → (o - base).toNat < 2147483648) ∧
      ∀ o, (some 5 : Option Ssn) = some o → (o - base).toNat < 2147483648 := by
  refine ⟨4294967290, by decide, by decide, ?_, ?_⟩ <;> (intro o h; obtain rfl := Option.some.inj h; decide)

theorem stack0_records_ok (phase : StackPhase) (fleet : Fin Config.fleets) (pending : Nat) :
    ∀ c ∈ (stack0 phase fleet pending).records, c.ok 1 ∧ c.acc.length = 256 := by
  intro c hc
  obtain rfl := List.eq_of_mem_replicate hc
  refine ⟨⟨by decide, by decide, by decide, fun a ha => ?_⟩, List.length_replicate⟩
  obtain rfl := List.eq_of_mem_replicate ha
  decide

theorem stand_bounds : BoundsInv stand := by
  have hs : ∀ phase fleet pending, pending ≤ 31 → (stack0 phase fleet pending).ok 2 := by
    intro phase fleet pending h
    exact ⟨by show 1 + pending ≤ 32; omega, Nat.zero_le _, ⟨fun _ => le_refl 1, fun _ => rfl⟩,
      ⟨fun _ => le_refl 1, fun _ => rfl⟩, rfl, rfl, stack0_records_ok phase fleet pending⟩
  have hc : scratch0.ok 2 := by unfold Scratch.ok TraceRecord.ok; decide
  refine ⟨fun k st h => ?_, fun l => ?_⟩
  · replace h : slots0[k] = some st := h
    fin_cases k <;> first
      | exact nomatch (show none = some st from h)
      | exact Option.some.inj h ▸ hs _ _ _ (by decide)
  · fin_cases l
    · exact rfl
    · exact hc
    · exact hc
    · trivial

theorem witness_stack_bounds :
    ((∀ r ∈ scratch0.records, r.ok) ∧ ∀ c ∈ (stack0 .opened 0 5).records, c.ok (stack0 .opened 0 5).fold) ∧
      RingInv stand ∧ ClaimInv stand ∧ LaneInv stand ∧ BoundsInv stand ∧ step stand = .next (idle stand) := by
  exact ⟨⟨by unfold TraceRecord.ok; decide, fun c hc => (stack0_records_ok _ _ _ c hc).1⟩, stand_ring, stand_claims,
    stand_lanes, stand_bounds, rfl⟩

theorem witness_output_samples :
    1 ≤ 3 ∧ (0 : Int) ≤ 0 ∧ (0 : Int) ≤ 0 ∧ -2147483648 * (3 : Int) ≤ 2147483647 * 3 ∧ 2147483647 * (3 : Int) ≤ 2147483647 * 3 := by
  decide

theorem witness_trace_flags :
    (ChannelStack.opening 2).accepted = 0 ∧
      1 ≤ ({ acc := [7, -7], weightSum := 2, accepted := 1, edited := 0, causes := EditSet.empty } : ChannelStack).accepted := by
  decide

theorem witness_trace_causes : RingInv stand ∧ traceCause (job0 0) ⟨false, .normal⟩ [] = some .inactive ∧
    traceCause (job0 0) ⟨true, .dead⟩ [] = some .dead ∧
    traceCause { job0 0 with clipLimit := 1 } ⟨true, .normal⟩ [⟨536870848, true, false⟩] = some .clip ∧
    traceCause { job0 0 with weight := .diversity, burst := 1 } ⟨true, .normal⟩ [⟨536870848, false, false⟩, word0] =
      some .burst ∧
    ∀ i, i < (job0 0).pilotLength + (job0 0).listen - 1 →
      ∃ r ∈ stand.ring, r.ssn = (job0 0).t0 + BitVec.ofNat 32 i :=
  ⟨stand_ring, by decide, by decide, by decide, by decide, by decide⟩

/-- The last row of an interval, a run of three low intervals, one at the noise threshold, an inactive entry and one with
the partial mark. -/
theorem witness_channels :
    (1023 : Nat) ≤ 1023 ∧ (stand.monitor.origin = none → stand.monitor.position = 0) ∧
      (let c : Channel := { Channel.reset with active := true, lowRun := 3, intervalSum := 16777216 * 15 }
       c.active = true ∧ c.partialMark = false ∧ c.ok ∧ c.intervalSum / 16777216 < c.deadThreshold) ∧
      (let c : Channel := { Channel.reset with active := true, noiseThreshold := 16, intervalSum := 16777216 * 17 }
      c.active = true ∧ c.partialMark = false ∧ c.ok ∧ c.deadThreshold ≤ c.intervalSum / 16777216 ∧
        c.noiseThreshold < c.intervalSum / 16777216) ∧
      Channel.reset.active = false ∧
      { Channel.reset with active := true, partialMark := true, intervalSum := 5 }.partialMark = true := by
  refine ⟨by decide, fun _ => rfl, ?_, ?_, rfl, rfl⟩ <;> (unfold Channel.ok; decide)

theorem witness_t0 : RingInv stand ∧ stand.oldest = some 5 ∧ State.reset.oldest = none ∧
    (fleet0 none 0).params.minSlip ≤ 32767 ∧ (fleet0 none 0).lastT0 = some 5 ∧ Fleet.reset.lastT0 = none :=
  ⟨stand_ring, rfl, rfl, by decide, rfl, rfl⟩

theorem witness_grant_order :
    (∀ x ∈ sweeps0, x.stage = .ready → (x.dataRow - 0).toNat < 2147483648) ∧ (∃ x ∈ sweeps0, x.stage = .ready) ∧
      chooseSweep sweeps0 = some (sweep0 4 .ready) ∧ chooseLane stand = some 3 ∧ stand.lanes[3] = .idle := by decide

/-! ### Witnesses: alerts and links -/

theorem witness_alerts :
    RecordRequest (withRecord 42 1 [0] { stand with alerts := { pending := 1, mask := 1 } }) 42 1 [0] [] ∧
      (∃ i, i < 8 ∧ (1 : CauseSet).getLsbD i = true ∧ (1 : CauseSet).getLsbD i = true ∧ (0 : CauseSet).getLsbD i = false) ∧
      RecordRequest (withRecord 43 1 [0xFF] stand) 43 1 [0xFF] [] ∧
      (∃ i, i < 8 ∧ (0x80 : CauseSet).getLsbD i = true ∧ stand.alerts.pending.getLsbD i = false ∧
        stand.alerts.mask.getLsbD i = false) ∧ stand.record.up = false ∧ (withRecord 0 0 [] stand).record.up = true ∧
      (withRecord 0 0 [] stand).reading = none :=
  ⟨⟨rfl, rfl, rfl⟩, ⟨0, by decide⟩, ⟨rfl, rfl, rfl⟩, ⟨7, by decide⟩, rfl, rfl, rfl⟩

theorem witness_link_events :
    stand.linkIsUp .spread = false ∧ PartnerLink.reset.up = false ∧
      (let l : PartnerLink := { PartnerLink.reset with up := true, output := [.alert 0 1] }
       l.up = true ∧ l.output = .alert 0 1 :: []) := ⟨rfl, rfl, rfl, rfl⟩

/-- A frame that passes, one cut short, and buffers one below and at their last place. -/
theorem witness_frame_receipt :
    let place := fun n => List.replicate n ({ kind := 19, tag := 0, payload := [] } : Frame)
    (withSource 0 0 [] stand).source.up = true ∧ (withRecord 0 0 [] stand).record.up = true ∧
      (withSpread 0 0 [] stand).spread.up = true ∧ readFrame [1, 0, 0] = none ∧
      readFrame (frameBytes 2 0 [0, 0, 0, 5]) = some { kind := 2, tag := 0, payload := [0, 0, 0, 5] } ∧
      readFrame (frameBytes 2 0 [5]) = some { kind := 2, tag := 0, payload := [5] } ∧
      (place 3).length < 4 ∧ 4 ≤ (place 4).length ∧ (place 15).length < 16 ∧ 16 ≤ (place 16).length :=
  ⟨rfl, rfl, rfl, by decide, by decide +kernel, by decide +kernel, by decide, by decide, by decide, by decide⟩

theorem witness_link_refusals :
    SourceRequest (withSource 15 1 [] stand) 15 1 [] [] ∧ (15 : Byte).toNat < 16 ∧
      SourceRequest (withSource 25 1 [] stand) 25 1 [] [] ∧ 24 < (25 : Byte).toNat ∧
      RecordRequest (withRecord 31 1 [] stand) 31 1 [] [] ∧ (31 : Byte).toNat < 32 ∧
      RecordRequest (withRecord 47 1 [] stand) 47 1 [] [] ∧ 46 < (47 : Byte).toNat ∧
      SourceRequest (withSource 17 1 [0, 0, 0, 0, 1] stand) 17 1 [0, 0, 0, 0, 1] [] ∧
      ([0, 0, 0, 0, 1] : List Byte).length ≠ 5 + 2 * halfAt [0, 0, 0, 0, 1] 3 ∧
      RecordRequest (withRecord 44 1 [0] stand) 44 1 [0] [] ∧ ([0] : List Byte).length ≠ 0 ∧
      RecordRequest (withRecord 33 1 [0, 0, 0] stand) 33 1 [0, 0, 0] [] ∧ ([0, 0, 0] : List Byte).length < 4 :=
  ⟨⟨rfl, rfl⟩, by decide, ⟨rfl, rfl⟩, by decide, ⟨rfl, rfl, rfl⟩, by decide, ⟨rfl, rfl, rfl⟩, by decide, ⟨rfl, rfl⟩,
    by decide, ⟨rfl, rfl, rfl⟩, by decide, ⟨rfl, rfl, rfl⟩, by decide⟩

/-! ### Witnesses: the stream -/

/-- The payload of a ROW BLOCK of one row of two channels. -/
def block0 (first : Ssn) : List Byte :=
  encWord first ++ [1, 0, 2] ++ [0, 0x13, 0x88, 0x81] ++ [0, 0, 0, 0]

theorem block0_good (first : Ssn) (h : wordAt (block0 first) 0 = first) (s : State) (hc : s.ingest.channels = 2) :
    GoodBlock s (block0 first) first 1 := by
  refine ⟨?_, ?_, h, rfl⟩
  · simp [block0, blockMalformed, byteAt, encWord, enc32, enc16, halfAt]
  · rw [hc]; simp [block0, halfAt, byteAt, encWord, enc32, enc16]

/-- At E, at the widest gap, and in origin state NONE. -/
theorem witness_row_blocks :
    SpreadFrame (withSpread 1 0 (block0 7) stand) 1 0 (block0 7) [] ∧ GoodBlock stand (block0 7) 7 1 ∧
      GoodBlock stand (block0 4103) 4103 1 ∧ stand.ring.length ≤ 65536 ∧ stand.ingest.origin = some ⟨5, 7⟩ ∧
      ((7 : Ssn) - 7).toNat = 0 ∧ ((4103 : Ssn) - 7).toNat = 4096 ∧
      { Ingest.reset with channels := 2 }.origin = none :=
  ⟨rfl, block0_good _ (by decide) _ rfl, block0_good _ (by decide) _ rfl, by decide, rfl, by decide, by decide, rfl⟩

/-- A block with another channel count, one cut short, and rows one and 2^31 - 1 behind E. -/
theorem witness_stale_blocks :
    SpreadFrame (withSpread 1 0 [0, 0, 0] stand) 1 0 [0, 0, 0] [] ∧ ([0, 0, 0] : List Byte).length < 7 ∧
      halfAt (encWord 7 ++ [1, 0, 1] ++ [0, 0, 0, 0]) 5 ≠ stand.ingest.channels ∧
      SpreadFrame (withSpread 1 0 (block0 6) stand) 1 0 (block0 6) [] ∧ GoodBlock stand (block0 6) 6 1 ∧
      stand.ring.length ≤ 65536 ∧ stand.ingest.origin = some ⟨5, 7⟩ ∧ ((7 : Ssn) - 6).toNat = 1 ∧
      GoodBlock stand (block0 2147483656) 2147483656 1 ∧ ((7 : Ssn) - 2147483656).toNat = 2147483647 :=
  ⟨rfl, by decide, by decide, rfl, block0_good _ (by decide) _ rfl, by decide, rfl, by decide,
    block0_good _ (by decide) _ rfl, by decide⟩

theorem witness_restarts :
    SpreadFrame (withSpread 2 0 (encWord 900) stand) 2 0 (encWord 900) [] ∧ DistinctNumbers stand ∧
      (∃ e ∈ stand.sweeps, e.stage = .correlating 0) ∧ (∀ e ∈ stand.sweeps, e.stage ≠ .correlating 3) ∧
      SpreadFrame (withSpread 1 0 (block0 4104) stand) 1 0 (block0 4104) [] ∧ GoodBlock stand (block0 4104) 4104 1 ∧
      stand.ingest.origin = some ⟨5, 7⟩ ∧ 4097 ≤ ((4104 : Ssn) - 7).toNat ∧
      GoodBlock stand (block0 2147483655) 2147483655 1 ∧ ((2147483655 : Ssn) - 7).toNat ≤ 2147483648 :=
  ⟨rfl, stand_distinct, ⟨sweep0 0 (.correlating 0), by decide, rfl⟩, by decide, rfl,
    block0_good _ (by decide) _ rfl, rfl, by decide, block0_good _ (by decide) _ rfl, by decide⟩

/-- A full ring whose oldest row is at the T0 of the sweeps. -/
theorem witness_overrun :
    let row : RingRow := ⟨5, [word0, word0]⟩
    let ring := List.replicate 65535 row
    let s := withSpread 1 0 (block0 65541) { stand with
      ring := row :: ring, ingest := { stand.ingest with origin := some ⟨5, 65541⟩ } }
    SpreadFrame s 1 0 (block0 65541) [] ∧ GoodBlock s (block0 65541) 65541 1 ∧
      (∃ o, s.ingest.origin = some o ∧ o.expected = 65541) ∧ s.ring = row :: ring ∧ s.ring.length = 65536 ∧
      DistinctNumbers s ∧ (∀ e ∈ s.sweeps, e.isRejected = false) ∧
      ∃ e ∈ s.sweeps, (e.isDroppable && ssnAtOrBefore e.t0 row.ssn) = true ∧ e.stage = .correlating 0 := by
  refine ⟨rfl, block0_good _ (by decide) _ rfl, ⟨_, rfl, rfl⟩, rfl, ?_, stand_distinct, ?_,
    sweep0 0 (.correlating 0), ?_, by decide, rfl⟩
  · show (List.replicate 65535 (⟨5, [word0, word0]⟩ : RingRow)).length + 1 = 65536
    rw [List.length_replicate]
  · show ∀ e ∈ sweeps0, e.isRejected = false
    decide
  · show sweep0 0 (.correlating 0) ∈ sweeps0
    decide

/-- The first arrival into an empty ring, in both origin states, one row past a waiting sweep's T0; and an arrival on a
ring that is neither empty nor full at a waiting sweep's data-complete row. -/
theorem witness_arrivals :
    let early : SweepEntry :=
      { sweep0 7 .waiting with qc := .pending, dataComplete := false, t0 := 8, dataRow := 9 }
    let unset := withSpread 1 0 (block0 9) { stand with
      ring := [], sweeps := [early], ingest := { stand.ingest with origin := none } }
    let empty := { unset with ingest := { stand.ingest with origin := some ⟨9, 9⟩ } }
    let due := withSpread 1 0 (block0 7) { stand with sweeps := [{ early with t0 := 5, dataRow := 7 }] }
    (SpreadFrame unset 1 0 (block0 9) [] ∧ GoodBlock unset (block0 9) 9 1 ∧ unset.ingest.origin = none ∧
      unset.ring = [] ∧ DistinctNumbers unset ∧ (∀ e ∈ unset.sweeps, e.isRejected = false) ∧
      (∃ e ∈ unset.sweeps, e.stage = .waiting ∧ ssnAtOrBefore 9 e.t0 = false)) ∧
      (GoodBlock empty (block0 9) 9 1 ∧ ∃ o, empty.ingest.origin = some o ∧ o.expected = 9) ∧
      SpreadFrame due 1 0 (block0 7) [] ∧ GoodBlock due (block0 7) 7 1 ∧
      (∃ o, due.ingest.origin = some o ∧ o.expected = 7) ∧ due.ring ≠ [] ∧ due.ring.length < 65536 ∧
      DistinctNumbers due ∧ (∀ e ∈ due.sweeps, e.isRejected = false) ∧
      ∃ e ∈ due.sweeps, e.dataRow = 7 ∧ e.dataComplete = false ∧ e.qc = .pending := by
  refine ⟨⟨rfl, block0_good _ (by decide) _ rfl, rfl, rfl, by unfold DistinctNumbers; decide, by decide, by decide⟩,
    ⟨block0_good _ (by decide) _ rfl, _, rfl, rfl⟩, rfl, block0_good _ (by decide) _ rfl, ⟨_, rfl, rfl⟩, by decide,
    by decide, by unfold DistinctNumbers; decide, by decide, by decide⟩

/-- A gap of 4,096 rows before one row, on a ring that stays short of full and on a full one; a row 2^31 - 1 behind E and
one at E - 1, which append nothing; a gap of one row behind which a waiting sweep becomes data complete. -/
theorem witness_blocks_of_rows :
    let waits : SweepEntry := { sweep0 7 .waiting with qc := .pending, dataComplete := false, dataRow := 8 }
    let s := fun first => withSpread 1 0 (block0 first) { stand with sweeps := [waits] }
    let full := { s 69637 with
      ring := List.replicate 65536 ⟨5, [word0, word0]⟩, ingest := { stand.ingest with origin := some ⟨5, 65541⟩ } }
    SpreadFrame (s 8) 1 0 (block0 8) [] ∧ GoodBlock (s 8) (block0 8) 8 1 ∧ RowsAppended (s 8) 8 1 7 2 ∧
      (s 8).ring.length + 2 ≤ 65536 ∧ DistinctNumbers (s 8) ∧ (∀ e ∈ (s 8).sweeps, e.isRejected = false) ∧
      (waits.dataRow - 7).toNat < 2 ∧ GoodBlock (s 4103) (block0 4103) 4103 1 ∧ RowsAppended (s 4103) 4103 1 7 4097 ∧
      GoodBlock full (block0 69637) 69637 1 ∧ RowsAppended full 69637 1 65541 4097 ∧ full.ring.length ≤ 65536 ∧
      GoodBlock (s 6) (block0 6) 6 1 ∧ RowsAppended (s 6) 6 1 7 0 ∧
      GoodBlock (s 2147483656) (block0 2147483656) 2147483656 1 ∧ RowsAppended (s 2147483656) 2147483656 1 7 0 ∧
      RowsAppended { s 8 with ingest := { stand.ingest with origin := none } } 8 1 8 1 := by
  refine ⟨rfl, block0_good _ (by decide) _ rfl, .inr ⟨_, rfl, rfl, .inl (by decide)⟩, by decide,
    by unfold DistinctNumbers; decide, by decide, by decide, block0_good _ (by decide) _ rfl,
    .inr ⟨_, rfl, rfl, .inl (by decide)⟩, block0_good _ (by decide) _ rfl, .inr ⟨_, rfl, rfl, .inl (by decide)⟩, ?_,
    block0_good _ (by decide) _ rfl, .inr ⟨_, rfl, rfl, .inr (by decide)⟩, block0_good _ (by decide) _ rfl,
    .inr ⟨_, rfl, rfl, .inr (by decide)⟩, .inl ⟨rfl, rfl, rfl⟩⟩
  show (List.replicate 65536 (⟨5, [word0, word0]⟩ : RingRow)).length ≤ 65536
  rw [List.length_replicate]

/-- At and above the largest count, at and above the largest code, and in a part at rest. -/
theorem witness_setup :
    RecordRequest (withRecord 32 1 (enc16 1025 ++ enc8 3) stand) 32 1 (enc16 1025 ++ enc8 3) [] ∧ 1024 < 1025 ∧
      RecordRequest (withRecord 32 1 (enc16 1024 ++ enc8 4) stand) 32 1 (enc16 1024 ++ enc8 4) [] ∧ 3 < 4 ∧
      RecordRequest (withRecord 32 1 (enc16 1024 ++ enc8 3) stand) 32 1 (enc16 1024 ++ enc8 3) [] ∧
      stand.sweeps ≠ [] ∧ (3 : Fin 4).val = 3 ∧ State.reset.sweeps = [] ∧
      ∀ k : Fin Config.stackSlots, State.reset.slots[k] = none :=
  ⟨⟨rfl, rfl, rfl⟩, by decide, ⟨rfl, rfl, rfl⟩, by decide, ⟨rfl, rfl, rfl⟩, by decide, rfl, rfl, by decide⟩

/-! ### Witnesses: channels and pilots -/

/-- The last entry of the table, one past it, an active value of 2, and a count that the payload does not carry. -/
theorem witness_channel_requests :
    let r : ChannelRecord := { active := 1, label := 7, deadThreshold := 65535, noiseThreshold := 5 }
    let p := fun (first : Nat) (l : List ChannelRecord) => enc16 first ++ enc16 l.length ++
      l.flatMap fun r => enc8 r.active ++ encWord r.label ++ enc16 r.deadThreshold ++ enc16 r.noiseThreshold
    RecordRequest (withRecord 33 1 (p 1023 [r, r]) stand) 33 1 (p 1023 [r, r]) [] ∧
      (∀ q ∈ [r, r], q.active < 256 ∧ q.deadThreshold < 65536 ∧ q.noiseThreshold < 65536) ∧
      ¬ (1023 < 1023 ∨ [r, r] = [] ∨ 256 < [r, r].length ∨ ∃ q ∈ [r, r], 1 < q.active) ∧
      [r, r][1023 - 1023]? = some r ∧
      RecordRequest (withRecord 33 1 (p 1024 [r]) stand) 33 1 (p 1024 [r]) [] ∧ 1023 < 1024 ∧
      (∃ q ∈ [{ r with active := 2 }], 1 < q.active) ∧
      RecordRequest (withRecord 33 1 [0, 0, 0, 1] stand) 33 1 [0, 0, 0, 1] [] ∧
      ([0, 0, 0, 1] : List Byte).length ≠ 4 + 9 * halfAt [0, 0, 0, 1] 2 ∧
      RecordRequest (withRecord 34 1 (enc16 1023 ++ enc16 256) stand) 34 1 (enc16 1023 ++ enc16 256) [] ∧
      RecordRequest (withRecord 34 1 (enc16 0 ++ enc16 257) stand) 34 1 (enc16 0 ++ enc16 257) [] ∧ 256 < 257 :=
  ⟨⟨rfl, rfl, rfl⟩, by decide, by decide, rfl, ⟨rfl, rfl, rfl⟩, by decide, by decide, ⟨rfl, rfl, rfl⟩, by decide,
    ⟨rfl, rfl, rfl⟩, ⟨rfl, rfl, rfl⟩, by decide⟩

/-- A load of the shortest pilot into a free READY slot, its last part, and its close. -/
theorem witness_pilot_loading :
    let part := List.replicate 512 (3 : BitVec 16)
    let held := List.replicate 512 (4 : BitVec 16)
    let s := stand.setPilot 3
      { phase := .filling 1024 2 held ⟨2000, 2400⟩, generation := 1, pins := 0, lastResult := .committed }
    let p := enc8 3 ++ enc16 held.length ++ enc16 part.length ++ part.flatMap fun x => enc16 x.toNat
    let full := stand.setPilot 3 { s.pilots[3] with phase := .filling 1024 2 (held ++ part) ⟨2000, 2400⟩ }
    SourceRequest (withSource 16 1 (enc8 3 ++ enc16 1024 ++ enc8 2) stand) 16 1 (enc8 3 ++ enc16 1024 ++ enc8 2) [] ∧
      (∀ a b c, (stand.pilots[3]).phase ≠ .committing a b c) ∧
      ((stand.pilots[3]).phase.isReady = true → (stand.pilots[3]).pins = 0) ∧
      SourceRequest (withSource 17 1 p s) 17 1 p [] ∧ (s.pilots[3]).phase = .filling 1024 2 held ⟨2000, 2400⟩ ∧
      1 ≤ part.length ∧ part.length ≤ 512 ∧ held.length + part.length ≤ 1024 ∧
      SourceRequest (withSource 18 1 (enc8 3) full) 18 1 (enc8 3) [] ∧
      (full.pilots[3]).phase = .filling 1024 2 (held ++ part) ⟨2000, 2400⟩ ∧ 1024 ≤ (held ++ part).length := by
  have hp : (List.replicate 512 (3 : BitVec 16)).length = 512 := List.length_replicate
  have hh : (List.replicate 512 (4 : BitVec 16)).length = 512 := List.length_replicate
  refine ⟨⟨rfl, rfl⟩, fun a b c h => ?_, fun _ => rfl, ⟨rfl, rfl⟩, rfl, by rw [hp]; decide, by rw [hp],
    by rw [hp, hh], ⟨rfl, rfl⟩, rfl, by rw [List.length_append, hp, hh]⟩
  exact nomatch (show PilotPhase.ready 1024 2 [3, 4] 25 = .committing a b c from h)

theorem witness_pilot_refusals :
    let p := fun (slot offset : Nat) (l : List (BitVec 16)) =>
      enc8 slot ++ enc16 offset ++ enc16 l.length ++ l.flatMap fun x => enc16 x.toNat
    SourceRequest (withSource 16 1 (enc8 16 ++ [4, 0, 2]) stand) 16 1 (enc8 16 ++ [4, 0, 2]) [] ∧
      SourceRequest (withSource 17 1 (p 16 0 [7]) stand) 17 1 (p 16 0 [7]) [] ∧
      SourceRequest (withSource 18 1 (enc8 16) stand) 18 1 (enc8 16) [] ∧
      SourceRequest (withSource 16 1 (enc8 3 ++ enc16 1023 ++ enc8 3) stand) 16 1 (enc8 3 ++ enc16 1023 ++ enc8 3) [] ∧
      SourceRequest (withSource 16 1 (enc8 3 ++ enc16 16384 ++ enc8 4) stand) 16 1 (enc8 3 ++ enc16 16384 ++ enc8 4) [] ∧
      (stand.pilots[2]).phase = .committing 1024 2 [3, 4] ∧
      ((stand.pilots[0]).phase.isReady = true ∧ 1 ≤ (stand.pilots[0]).pins) ∧
      SourceRequest (withSource 17 1 (p 1 0 []) stand) 17 1 (p 1 0 []) [] ∧
      SourceRequest (withSource 17 1 (p 1 2 [7]) stand) 17 1 (p 1 2 [7]) [] ∧
      (stand.pilots[1]).phase = .filling 1024 2 [7] ⟨2000, 2500⟩ ∧ (2 : Nat) ≠ [7].length ∧
      1024 < (1023 : Nat) + [7, 7].length ∧ ([7] : List (BitVec 16)).length < 1024 ∧
      SourceRequest (withSource 18 1 (enc8 1) stand) 18 1 (enc8 1) [] ∧
      (∀ a b c d, (stand.pilots[0]).phase ≠ .filling a b c d) := by
  refine ⟨⟨rfl, rfl⟩, ⟨rfl, rfl⟩, ⟨rfl, rfl⟩, ⟨rfl, rfl⟩, ⟨rfl, rfl⟩, rfl, by decide, ⟨rfl, rfl⟩, ⟨rfl, rfl⟩, rfl,
    by decide, by decide, by decide, ⟨rfl, rfl⟩, fun a b c d h => ?_⟩
  exact nomatch (show PilotPhase.ready 1024 2 [3, 4] 25 = .filling a b c d from h)

theorem witness_pilot_query :
    SourceRequest (withSource 19 1 (enc8 16) stand) 19 1 (enc8 16) [] ∧ 15 < 16 ∧
      SourceRequest (withSource 19 1 (enc8 0) stand) 19 1 (enc8 0) [] ∧
      (stand.pilots[0]).phase = .ready 1024 2 [3, 4] 25 ∧ (stand.pilots[15]).phase = .empty ∧
      (stand.pilots[1]).phase = .filling 1024 2 [7] ⟨2000, 2500⟩ ∧ (stand.pilots[2]).phase = .committing 1024 2 [3, 4] ∧
      SourceRequest (withSource 20 1 (enc16 (0xFFFF : BitVec 16).toNat) stand) 20 1 (enc16 (0xFFFF : BitVec 16).toNat) [] :=
  ⟨⟨rfl, rfl⟩, by decide, ⟨rfl, rfl⟩, rfl, rfl, rfl, rfl, ⟨rfl, rfl⟩⟩

theorem witness_commits :
    (1 : Nat) ≤ 45 ∧ 2 ^ (45 - 1) ≤ 2 ^ 44 ∧ 2 ^ 44 < 2 ^ 45 ∧
      (stand.pilots[2]).phase = .committing 1024 2 [3, 4] ∧
      ((25 : Nat) : Int) = (([3, 4] : List (BitVec 16)).map fun x => x.toInt * x.toInt).sum ∧
      (stand.pilots[4]).phase = .committing 1024 2 [0, 0] ∧
      ((0 : Nat) : Int) = (([0, 0] : List (BitVec 16)).map fun x => x.toInt * x.toInt).sum := by
  refine ⟨by decide, by norm_num, by norm_num, rfl, by decide, rfl, by decide⟩

/-! ### Witnesses: timers and announcements -/

/-- No timer is late where the listed timers are not. -/
theorem not_late {s : State} (h : ∀ t ∈ s.timers, s.clock ≤ t.deadline) : NoTimerLate s :=
  fun t ht => h t (mem_timers.mpr ht)

/-- The state without its READY sweep, so that no grant is due. -/
def quiet : State := { stand with sweeps := sweeps0.filter fun e => decide (e.stage ≠ .ready) }

theorem quiet_calm : CalmUntil quiet 1500 :=
  ⟨fun t ht => (by decide : ∀ t ∈ quiet.timers, 1500 ≤ t.deadline) t (mem_timers.mpr ht), fun _ => .inl (by decide)⟩

/-- The fill timer is the next to expire. -/
def filling : State := quiet.setSlot 3 none

/-- A report timer is the next to expire. -/
def reporting : State := filling.setPilot 1 PilotSlot.reset

/-- No timer at all; a state in which one is due at the next millisecond, and one before it; a fill timer whose deadline
lies behind a linger timer's; and the next timer of each kind. -/
theorem witness_timers :
    (State.reset.pending = [] ∧ NoGrant State.reset ∧ ∀ timer, ¬ RunsTimer State.reset timer) ∧
      (let s := { quiet with clock := 1500 }
       s.pending = [] ∧ NoGrant s ∧ NoTimerLate s ∧ DistinctNumbers s ∧ dueCommands s = [.lingerExpiry 3]) ∧
      (NoTimerLate stand ∧ DistinctNumbers stand ∧ step stand = .next (idle stand) ∧ stand.clock < 2500 ∧
        step { stand with pending := [] } = .next (idle stand) ∧
        (stand.pilots[1]).phase = .filling 1024 2 [7] ⟨2000, 2500⟩) ∧
      ((filling.pilots[1]).phase = .filling 1024 2 [7] ⟨2000, 2500⟩ ∧ CalmUntil filling 2500) ∧
      DistinctNumbers reporting ∧ CalmUntil reporting 4500 ∧
      ∃ e ∈ reporting.sweeps, e.timer = some ⟨4000, 4500⟩ ∧ e.qc = .pending ∧ e.dataComplete = true ∧
        e.stage = .waiting := by
  refine ⟨⟨rfl, .inl rfl, fun t ht => ?_⟩,
    ⟨rfl, .inl (by decide), not_late (by decide), by unfold DistinctNumbers; decide, by decide⟩,
    ⟨not_late (by decide), stand_distinct, rfl, by decide, rfl, rfl⟩,
    ⟨rfl, fun t ht => (by decide : ∀ t ∈ filling.timers, 2500 ≤ t.deadline) t (mem_timers.mpr ht),
      fun _ => .inl (by decide)⟩,
    by unfold DistinctNumbers; decide,
    ⟨fun t ht => (by decide : ∀ t ∈ reporting.timers, 4500 ≤ t.deadline) t (mem_timers.mpr ht),
      fun _ => .inl (by decide)⟩,
    { sweep0 1 .waiting with qc := .pending, timer := some ⟨4000, 4500⟩ }, by decide, rfl, rfl, rfl, rfl⟩
  exact (by decide : ∀ t ∈ State.reset.timers, False) t (mem_timers.mpr ht)

/-- 00 section 0.5: the linger timer of slot 3, due at 1,501 ms, has expired by the expiry of pilot 1's fill timer at
2,500 ms. -/
theorem test_no_timer_is_left_behind :
    let t := after (.fillTimeout 1) quiet
    t.clock = 2500 ∧ t.harvestQueue = [1, 3] ∧ (t.pilots[1]).lastResult = .fillTimeout := by decide +kernel

/-- R99: with a READY sweep and an IDLE lane the part makes the grant before a millisecond passes. -/
theorem test_ready_sweep_does_not_wait :
    (idle stand).clock = 500 ∧ (idle stand).lanes[3].number = 1 ∧
      (idle stand).sweeps.map (fun e => e.stage.number) = [2, 0, 3, 3, 2, 0] := by decide

/-- The last fleet that has no open slot, one whose slot has sweeps pending, and one whose slot has none. -/
theorem witness_announce_opens :
    let p := fun (fleet : Nat) => enc8 fleet ++ encWord (1 : Word32) ++ enc8 3 ++ encWord (6 : Ssn)
    let row : RingRow := ⟨6, [word0, word0]⟩
    SourceRequest (withSource 21 1 (p 1) stand) 21 1 (p 1) [] ∧ (stand.fleets[1]).defined = true ∧
      (stand.pilots[3]).phase = .ready 1024 2 [3, 4] 25 ∧ (2 : Fin 4) = stand.ingest.interval ∧
      t0InBounds stand 6 = true ∧ slipPasses stand.fleets[1] 6 = true ∧ stand.sweeps.length < 32 ∧
      (∀ j : Fin Config.stackSlots, j < 5 → stand.slots[j] ≠ none) ∧ stand.slots[5] = none ∧
      (stand.fleets[1]).openSlot = none ∧
      SourceRequest (withSource 21 1 (p 0) stand) 21 1 (p 0) [] ∧ (stand.fleets[0]).openSlot = some 0 ∧
      stand.slots[0] = some (stack0 .opened 0 5) ∧ (stack0 .opened 0 5).vp ≠ 1 ∧ 1 ≤ (stack0 .opened 0 5).pending ∧
      (stack0 .opened 0 5).fleet = 0 ∧ slipPasses stand.fleets[0] 6 = true ∧
      SourceRequest (withSource 21 1 (p 3) stand) 21 1 (p 3) [] ∧ (stand.fleets[3]).openSlot = some 6 ∧
      stand.slots[6] = some (stack0 .opened 3 0) ∧ (stack0 .opened 3 0).vp ≠ 1 ∧ (stack0 .opened 3 0).pending = 0 ∧
      (stack0 .opened 3 0).fleet = 3 ∧ slipPasses stand.fleets[3] 6 = true ∧ (stand.fleets[3]).defined = true ∧
      (stand.fleets[0]).defined = true ∧ row ∈ stand.ring := by
  refine ⟨⟨rfl, rfl⟩, rfl, rfl, rfl, by decide, by decide, by decide, by decide, rfl, rfl, ⟨rfl, rfl⟩, rfl, rfl,
    by decide, by decide, rfl, by decide, ⟨rfl, rfl⟩, rfl, rfl, by decide, rfl, rfl, by decide, rfl, rfl, by decide⟩

/-- An OPEN slot and a slot whose linger timer runs, each joined, the first at one place below the bound of 32. -/
theorem witness_announce_joins :
    let p := fun (fleet : Nat) => enc8 fleet ++ encWord (9 : Word32) ++ enc8 3 ++ encWord (6 : Ssn)
    SourceRequest (withSource 21 1 (p 0) stand) 21 1 (p 0) [] ∧ (stand.fleets[0]).defined = true ∧
      (stand.pilots[3]).phase = .ready 1024 2 [3, 4] 25 ∧ (2 : Fin 4) = stand.ingest.interval ∧
      t0InBounds stand 6 = true ∧ slipPasses stand.fleets[0] 6 = true ∧ stand.sweeps.length < 32 ∧
      (stand.fleets[0]).openSlot = some 0 ∧ stand.slots[0] = some (stack0 .opened 0 5) ∧
      (stack0 .opened 0 5).vp = 9 ∧ (stack0 .opened 0 5).fleet = 0 ∧ (stack0 .opened 0 5).isJoinable = true ∧
      (stack0 .opened 0 30).fold + (stack0 .opened 0 30).pending < 32 ∧
      (stand.fleets[0]).params.listen = (stack0 .opened 0 5).listen ∧
      SourceRequest (withSource 21 1 (p 2) stand) 21 1 (p 2) [] ∧ (stand.fleets[2]).openSlot = some 3 ∧
      slipPasses stand.fleets[2] 6 = true ∧ stand.slots[3] = some (stack0 (.linger ⟨1000, 1500⟩) 2 0) ∧
      (stack0 (.linger ⟨1000, 1500⟩) 2 0).isJoinable = true := by
  refine ⟨⟨rfl, rfl⟩, rfl, rfl, rfl, by decide, by decide, by decide, rfl, rfl, rfl, rfl, rfl, by decide, rfl,
    ⟨rfl, rfl⟩, rfl, by decide, rfl, rfl⟩

/-- Each check of an announcement at a state where it is the first to fail. -/
theorem witness_announce_refusals :
    let p := fun (fleet pilot : Nat) (t0 : Ssn) => enc8 fleet ++ encWord (9 : Word32) ++ enc8 pilot ++ encWord t0
    let wide : FleetParams := (fleet0 (some 0) 0).params
    let slipped := stand.setFleet 0 { (fleet0 (some 0) 0) with params := { wide with minSlip := 2 } }
    let crowded := { stand with sweeps := List.replicate 32 (sweep0 0 .waiting) }
    let folded := stand.setSlot 0 (some (stack0 .opened 0 31))
    let full := { stand with slots := Vector.replicate _ (some (stack0 .opened 4 0)) }
    SourceRequest (withSource 21 1 (p 8 15 6) stand) 21 1 (p 8 15 6) [] ∧ 7 < 8 ∧
      SourceRequest (withSource 21 1 (p 7 16 6) stand) 21 1 (p 7 16 6) [] ∧ 15 < 16 ∧
      SourceRequest (withSource 21 1 (p 7 3 6) stand) 21 1 (p 7 3 6) [] ∧ (stand.fleets[7]).defined = false ∧
      SourceRequest (withSource 21 1 (p 0 1 6) stand) 21 1 (p 0 1 6) [] ∧ (stand.fleets[0]).defined = true ∧
      (stand.pilots[1]).phase.isReady = false ∧
      SourceRequest (withSource 21 1 (p 0 3 4) stand) 21 1 (p 0 3 4) [] ∧
      (stand.pilots[3]).phase = .ready 1024 2 [3, 4] 25 ∧ (2 : Fin 4) = stand.ingest.interval ∧
      (2 : Fin 4) ≠ ({ stand.ingest with interval := 1 } : Ingest).interval ∧
      t0InBounds stand 4 = false ∧ t0InBounds stand 6 = true ∧ slipPasses slipped.fleets[0] 6 = false ∧
      slipPasses stand.fleets[0] 6 = true ∧ 32 ≤ crowded.sweeps.length ∧ stand.sweeps.length < 32 ∧
      (stand.fleets[0]).openSlot = some 0 ∧ folded.slots[0] = some (stack0 .opened 0 31) ∧
      32 ≤ (stack0 .opened 0 31).fold + (stack0 .opened 0 31).pending ∧
      stand.slots[0] = some (stack0 .opened 0 5) ∧ (stack0 .opened 0 5).vp = 9 ∧
      (stack0 .opened 0 5).fold + (stack0 .opened 0 5).pending < 32 ∧
      ({ wide with listen := 257 } : FleetParams).listen ≠ (stack0 .opened 0 5).listen ∧
      (full.fleets[1]).openSlot = none ∧ ∀ k : Fin Config.stackSlots, full.slots[k] ≠ none := by
  refine ⟨⟨rfl, rfl⟩, by decide, ⟨rfl, rfl⟩, by decide, ⟨rfl, rfl⟩, rfl, ⟨rfl, rfl⟩, rfl, rfl, ⟨rfl, rfl⟩, rfl, rfl,
    by decide, by decide, by decide, by decide, by decide, by decide, by decide, rfl, rfl, by decide, rfl, rfl,
    by decide, by decide, rfl, by decide⟩

/-! ### Witnesses: reports, cancels, ends of a VP, seals -/

/-- The payload of a SWEEP REPORT. -/
def report0 (number : Word32) (vs : List VibratorEntry) : List Byte :=
  encWord number ++ enc8 vs.length ++ vs.flatMap fun v =>
    enc16 v.id ++ enc16 v.peakPhase ++ enc16 v.meanPhase ++ enc16 v.distortion ++ enc16 v.force

/-- No entry, eight and nine, the ids 15 and 16, and a sweep in each outcome. -/
theorem witness_reports :
    let good : VibratorEntry := ⟨15, 200, 100, 300, 60⟩
    let bad : VibratorEntry := ⟨15, 201, 65535, 301, 59⟩
    let judged := { stand with sweeps := [{ sweep0 1 .waiting with qc := .noReport }, sweep0 2 .ready] }
    SourceRequest (withSource 22 1 (report0 1 []) stand) 22 1 (report0 1 []) [] ∧
      SourceRequest (withSource 22 1 (report0 1 (List.replicate 9 good)) stand) 22 1
        (report0 1 (List.replicate 9 good)) [] ∧ 8 < (List.replicate 9 good).length ∧
      SourceRequest (withSource 22 1 (report0 1 [⟨16, 0, 0, 0, 0⟩]) stand) 22 1 (report0 1 [⟨16, 0, 0, 0, 0⟩]) [] ∧
      SourceRequest (withSource 22 1 (report0 9 [good]) stand) 22 1 (report0 9 [good]) [] ∧
      (∀ e ∈ stand.sweeps, e.number ≠ 9) ∧ DistinctNumbers stand ∧
      (∀ v ∈ List.replicate 8 good, v.id ≤ 15 ∧ v.id < 65536 ∧ v.peakPhase < 65536 ∧ v.meanPhase < 65536 ∧
        v.distortion < 65536 ∧ v.force < 65536) ∧
      SourceRequest (withSource 22 1 (report0 1 (List.replicate 8 good)) stand) 22 1
        (report0 1 (List.replicate 8 good)) [] ∧
      (∃ e ∈ stand.sweeps, e.number = 1 ∧ e.qc = .pending ∧
        (evaluateReport e.copy [good]).isEmpty = true ∧ (evaluateReport e.copy [bad]).isEmpty = false ∧
        e.copy.policy = .reject) ∧
      (bad.peakPhase < 65536 ∧ bad.meanPhase < 65536) ∧ DistinctNumbers judged ∧
      (∃ e ∈ judged.sweeps, e.number = 1 ∧ e.qc = .noReport) ∧ ∃ e ∈ judged.sweeps, e.number = 2 ∧ e.qc = .pass := by
  refine ⟨⟨rfl, rfl⟩, ⟨rfl, rfl⟩, by decide, ⟨rfl, rfl⟩, ⟨rfl, rfl⟩, by decide, stand_distinct, by decide, ⟨rfl, rfl⟩,
    by decide, by decide, by unfold DistinctNumbers; decide, by decide, by decide⟩

theorem witness_cancels :
    (∀ n : Word32, SourceRequest (withSource 23 1 (encWord n) stand) 23 1 (encWord n) []) ∧ DistinctNumbers stand ∧
      (∀ e ∈ stand.sweeps, e.number ≠ 9) ∧ (∃ e ∈ stand.sweeps, e.number = 2 ∧ ∃ l, e.stage = .merging l) ∧
      (∃ e ∈ stand.sweeps, e.number = 0 ∧ ∀ l, e.stage ≠ .merging l) ∧
      (withSource 0 0 [] stand).source.up = true ∧ stand.source.up = false :=
  ⟨fun _ => ⟨rfl, rfl⟩, stand_distinct, by decide, by decide, by decide, rfl, rfl⟩

/-- The first fleet number out of range, a fleet without an open slot, another VP, and linger times 1000 and 0. -/
theorem witness_vp_ends :
    let p := fun (fleet : Nat) (vp : Word32) => enc8 fleet ++ encWord vp
    SourceRequest (withSource 24 1 (p 8 9) stand) 24 1 (p 8 9) [] ∧
      SourceRequest (withSource 24 1 (p 1 9) stand) 24 1 (p 1 9) [] ∧ (stand.fleets[1]).openSlot = none ∧
      SourceRequest (withSource 24 1 (p 0 8) stand) 24 1 (p 0 8) [] ∧ (stack0 .opened 0 5).vp ≠ 8 ∧
      SourceRequest (withSource 24 1 (p 0 9) stand) 24 1 (p 0 9) [] ∧ (stand.fleets[0]).openSlot = some 0 ∧
      stand.slots[0] = some (stack0 .opened 0 5) ∧ (stack0 .opened 0 5).fleet = 0 ∧ (stack0 .opened 0 5).vp = 9 ∧
      1 ≤ (stand.fleets[0]).params.linger ∧
      SourceRequest (withSource 24 1 (p 3 9) stand) 24 1 (p 3 9) [] ∧ (stand.fleets[3]).openSlot = some 6 ∧
      stand.slots[6] = some (stack0 .opened 3 0) ∧ (stack0 .opened 3 0).fleet = 3 ∧ (stack0 .opened 3 0).vp = 9 ∧
      (stand.fleets[3]).params.linger = 0 := by
  refine ⟨⟨rfl, rfl⟩, ⟨rfl, rfl⟩, rfl, ⟨rfl, rfl⟩, by decide, ⟨rfl, rfl⟩, rfl, rfl, rfl, rfl, by decide, ⟨rfl, rfl⟩,
    rfl, rfl, rfl, rfl, rfl⟩

/-- Presence 0, 1 with the tag, 1 with another tag and 2; a joinable, a sealed and a free slot, and slot 12. -/
theorem witness_seals :
    let p := fun (slot presence : Nat) (tag : BitVec 16) => enc8 slot ++ enc8 presence ++ enc16 tag.toNat
    let m : Stack := stack0 (.linger ⟨1000, 1500⟩) 2 0
    quiet.slots[3] = some m ∧ m.phase = .linger ⟨1000, 1500⟩ ∧ CalmUntil quiet 1500 ∧ stand.slots[3] = some m ∧
      RecordRequest (withRecord 39 1 (enc8 12 ++ [0, 0, 0]) stand) 39 1 (enc8 12 ++ [0, 0, 0]) [] ∧
      (∀ (n : Nat) (tag : BitVec 16), RecordRequest (withRecord 39 1 (p 3 n tag) stand) 39 1 (p 3 n tag) []) ∧
      stand.slots[5] = none ∧ m.isJoinable = true ∧ (4 : BitVec 16) ≠ m.tag ∧ (3 : BitVec 16) = m.tag ∧ 1 < 2 ∧
      stand.slots[1] = some (stack0 (.sealed .fleetMoved 0) 0 0) ∧
      (stack0 (.sealed .fleetMoved 0) 0 0).isJoinable = false ∧
      (∀ n : Nat, RecordRequest (withRecord 41 1 (enc8 n) stand) 41 1 (enc8 n) []) ∧ stand.harvestQueue.Nodup ∧
      m.isSealed = false ∧ (stack0 (.sealed .fleetMoved 0) 0 0).isSealed = true ∧
      (stack0 (.harvesting .recorderSeal) 1 0).isSealed = true := by
  refine ⟨rfl, rfl, quiet_calm, rfl, ⟨rfl, rfl, rfl⟩, fun _ _ => ⟨rfl, rfl, rfl⟩, rfl, rfl, by decide, rfl, by decide, rfl, rfl,
    fun _ => ⟨rfl, rfl, rfl⟩, by decide, rfl, rfl, rfl⟩

/-! ### Witnesses: lanes, the Recorder's requests, reads and the clear -/

theorem witness_grants :
    stand.pending = [] ∧ chooseSweep stand.sweeps = some (sweep0 4 .ready) ∧ chooseLane stand = some 3 ∧ stand.ingest.channels ≤ 1024 ∧
      chooseSweep State.reset.sweeps = none ∧ stand.lanes[0] = .correlating (job0 0) ∧
      (stand.ports[0]).holder ≠ none ∧ ((stand.setPort 0 MergePort.reset).ports[0]).holder = none ∧
      ((stand.setPort 0 MergePort.reset).ports[0]).waiting = [] := by
  refine ⟨rfl, by decide, by decide, by decide, rfl, rfl, by decide, rfl, rfl⟩

/-- The merge of lane 1, with lane 2 waiting for the port, and with nobody waiting. -/
theorem witness_merges :
    stand.lanes[1] = .merging (job0 2) scratch0 ∧ DistinctNumbers stand ∧ sweep0 2 (.merging 1) ∈ stand.sweeps ∧
      (sweep0 2 (.merging 1)).number = (job0 2).sweep ∧ (sweep0 2 (.merging 1)).slot = (job0 2).slot ∧
      stand.slots[(job0 2).slot] = some (stack0 .opened 0 5) ∧ (stand.ports[(job0 2).slot]).waiting = [2] ∧
      stand.lanes[2] = .mergeWait (job0 3) scratch0 ∧
      ((stand.setPort 0 { holder := some 1, waiting := [] }).ports[(job0 2).slot]).waiting = [] ∧
      ([5, 6] : List Int).length = ([7, -7] : List Int).length := by
  refine ⟨rfl, stand_distinct, by decide, rfl, rfl, rfl, rfl, rfl, rfl, rfl⟩

/-- Every field above its range, a fleet number above 7 and a code above 1. -/
theorem witness_fleet_set :
    let p := fun (fleet defined : Nat) => enc8 fleet ++ enc8 defined ++ enc8 255 ++ enc16 65535 ++ enc8 255 ++ enc8 1 ++
      enc32 4294967295 ++ enc16 65535 ++ enc16 65535 ++ enc16 65535 ++ enc16 65535 ++ enc16 65535 ++ enc8 1 ++ enc8 1 ++
      enc16 65535 ++ enc16 65535 ++ enc16 65535
    RecordRequest (withRecord 35 1 (p 7 1) stand) 35 1 (p 7 1) [] ∧ (7 : Fin Config.fleets).val = 7 ∧
      RecordRequest (withRecord 35 1 (p 8 1) stand) 35 1 (p 8 1) [] ∧ 7 < 8 ∧
      RecordRequest (withRecord 35 1 (p 7 2) stand) 35 1 (p 7 2) [] ∧ ¬ 2 ≤ 1 ∧ (4294967295 : Nat) < 4294967296 :=
  ⟨⟨rfl, rfl, rfl⟩, rfl, ⟨rfl, rfl, rfl⟩, by decide, ⟨rfl, rfl, rfl⟩, by decide, by decide⟩

theorem witness_queries :
    let p := fun (slot presence first count : Nat) => enc8 slot ++ enc8 presence ++ enc16 first ++ enc16 count
    (∀ n : Nat, RecordRequest (withRecord 36 1 (enc8 n) stand) 36 1 (enc8 n) []) ∧
      (∀ n ∈ [37, 44, 45], RecordRequest (withRecord n 1 [] stand) n 1 [] []) ∧
      (∀ a b c d : Nat, RecordRequest (withRecord 38 1 (p a b c d) stand) 38 1 (p a b c d) []) ∧
      stand.slots[0] = some (stack0 .opened 0 5) ∧
      (stack0 .opened 0 5).records.length = (stack0 .opened 0 5).channels ∧ stand.slots[5] = none ∧
      min 256 ((stack0 .opened 0 5).channels - 0) < 256 ∧
      (let st := { stack0 .opened 0 5 with channels := 256, records := List.replicate 256 (ChannelStack.opening 0) }
       st.records.length = st.channels ∧ min 256 (st.channels - 0) = 256) ∧
      ¬ (1 ≤ 257 ∧ 257 ≤ 256 ∧ 0 ≤ 1023) := by
  refine ⟨fun _ => ⟨rfl, rfl, rfl⟩, fun n _ => ⟨rfl, rfl, rfl⟩, fun _ _ _ _ => ⟨rfl, rfl, rfl⟩, rfl, rfl, rfl,
    by decide, ⟨List.length_replicate, by decide⟩, by decide⟩

/-- The bounds of each field of a read, a sealed, a harvesting, an open and a free slot. -/
theorem witness_record_reads :
    let p := fun (slot first count mode shift width : Nat) =>
      enc8 slot ++ enc16 first ++ enc8 count ++ enc8 mode ++ enc8 shift ++ enc8 width
    (∀ a b c d e f : Nat, RecordRequest (withRecord 40 1 (p a b c d e f) stand) 40 1 (p a b c d e f) []) ∧
      stand.harvestQueue.Nodup ∧ (1 ≤ 1 ∧ (32 = 16 ∨ 32 = 24 ∨ 32 = 32) ∧ 1023 ≤ 1023 ∧ 1 ≤ 64 ∧ 64 ≤ 64) ∧
      stand.slots[5] = none ∧ stand.slots[0] = some (stack0 .opened 0 5) ∧ (stack0 .opened 0 5).isSealed = false ∧
      stand.slots[1] = some (stack0 (.sealed .fleetMoved 0) 0 0) ∧
      stand.slots[2] = some (stack0 (.harvesting .recorderSeal) 1 0) := by
  refine ⟨fun _ _ _ _ _ _ => ⟨rfl, rfl, rfl⟩, by decide, by decide, rfl, rfl, rfl, rfl, rfl⟩

/-- A read of two channels before its header, at its first trace and at its last; with its REPLY unsent nothing is handed
on. -/
theorem witness_read_messages :
    let r : ReadInHand :=
      { slot := 1, first := 0, count := 2, mode := .mean, shift := 0, width := .w16, handed := 1, tag := 7 }
    let s := fun n => { withRecord 0 0 [] stand with reading := some { r with handed := n } }
    (s 1).record.up = true ∧ (s 1).record.output = [] ∧ (s 1).reading = some { r with handed := 1 } ∧
      ({ s 1 with record := { stand.record with output := [.reply 7 40 .done []] } } : State).record.output ≠ [] ∧
      (s 1).slots[r.slot] = some (stack0 (.sealed .fleetMoved 0) 0 0) ∧ (s 3).reading = some { r with handed := 3 } ∧
      ({ r with handed := 3 } : ReadInHand).handed = 1 + 2 ∧ 1 < r.count ∧
      (stack0 (.sealed .fleetMoved 0) 0 0).records[0 + 1]? ≠ none ∧
      stand.monitor.table.toList[0 + 1]? = some Channel.reset := by
  refine ⟨rfl, rfl, rfl, by decide, rfl, rfl, rfl, by decide, by decide, ?_⟩
  simp [stand, State.reset, Monitor.reset]

/-- R171: with its REPLY unsent a read hands on nothing; each RECORD HEADER or TRACE follows the sending of the message
before it, and the read ends with the last. -/
theorem test_read_follows_the_link :
    let r : ReadInHand :=
      { slot := 2, first := 0, count := 1, mode := .mean, shift := 0, width := .w16, handed := 1, tag := 7 }
    let s : State := { stand with
      reading := some r, record := { PartnerLink.reset with up := true, output := [.reply 7 40 .done []] } }
    let held := fun t : State => (t.record.output.length, t.reading.map ReadInHand.handed)
    let sent := fun t => after (.messageSend .record) t
    held (after .recordHeader s) = (1, some 1) ∧ held (after .recordHeader (sent s)) = (1, some 2) ∧
      held (after .trace (after .recordHeader (sent s))) = (1, some 2) ∧
      held (after .trace (sent (after .recordHeader (sent s)))) = (1, none) := by decide +kernel

theorem witness_device_clear :
    RecordRequest (withRecord 46 1 [] stand) 46 1 [] [] ∧ stand.sweeps.length = 6 ∧
      (withSource 0 0 [] stand).source.up = true ∧ stand.source.up = false := ⟨⟨rfl, rfl, rfl⟩, rfl, rfl, rfl⟩

end Sys2Proof.Tests
end

/-! PROOFS. Sample words and SETUP STREAM (chapter 1): what a sample word's bytes say and what it is normalised to,
and the three answers of SETUP STREAM. -/

namespace Sys2Proof.Machine

/-! ### Sample words (R16, R17, section 9.8) -/

/-- Three bytes side by side are the number they carry most significant byte first. -/
theorem bytes_append_eq_ofNat (b0 b1 b2 : Byte) :
    b0 ++ b1 ++ b2 = BitVec.ofNat 24 (b0.toNat * 65536 + (b1.toNat * 256 + b2.toNat)) := by
  have h0 := b0.isLt
  have h1 := b1.isLt
  have h2 := b2.isLt
  apply BitVec.eq_of_toNat_eq
  rw [BitVec.toNat_append, BitVec.toNat_append, ← Nat.shiftLeft_add_eq_or_of_lt h2,
    ← Nat.shiftLeft_add_eq_or_of_lt h1, BitVec.toNat_ofNat, Nat.shiftLeft_eq, Nat.shiftLeft_eq]
  omega

/-- The four bytes of a sample word: the raw sample, the gain step in the last byte's lowest two bits, the valid flag in
its highest. -/
theorem readSampleWord_bytes (b0 b1 b2 b3 : Byte) : readSampleWord [b0, b1, b2, b3] =
    { raw := (b0 ++ b1 ++ b2).toInt, gain := (b3.extractLsb' 0 2).toNat, valid := b3.msb } := by
  have hgain : (b3.extractLsb' 0 2).toNat = b3.toNat % 4 := by simp
  have hvalid : b3.msb = b3.getLsbD 7 := BitVec.msb_eq_getLsbD_last b3
  rw [bytes_append_eq_ofNat, hgain, hvalid]
  rfl

theorem normalise_of_valid {w : SampleWord} (h : w.valid = true) : normalise w =
    { x := w.raw * 4 ^ (3 - w.gain), clipped := decide (w.raw = -8388608 ∨ w.raw = 8388607), dropout := false } := by
  simp [normalise, h]

theorem normalise_of_invalid {w : SampleWord} (h : w.valid = false) :
    normalise w = { x := 0, clipped := false, dropout := true } := by
  simp [normalise, h]

/-- A 24-bit sample stays within 2^29 at every gain step: the factor is at most 4^3. -/
theorem natAbs_scaled_le {raw : Int} (k : Nat) (hk : k ≤ 3) (hlo : -8388608 ≤ raw) (hhi : raw ≤ 8388607) :
    (raw * 4 ^ k).natAbs ≤ 536870912 :=
  calc (raw * 4 ^ k).natAbs = raw.natAbs * 4 ^ k := by rw [Int.natAbs_mul, Int.natAbs_pow]; rfl
    _ ≤ 8388608 * 4 ^ 3 := Nat.mul_le_mul (by omega) (Nat.pow_le_pow_right (by decide) hk)
    _ = 536870912 := by decide

/-- Settles O19, by the two values of the valid flag. -/
theorem samplesAreNormalised : Obligations.SamplesAreNormalised := by
  refine ⟨readSampleWord_bytes, fun w _ hlo hhi => ⟨fun hvalid => ?_, normalise_of_invalid⟩⟩
  rw [normalise_of_valid hvalid]
  exact ⟨rfl, natAbs_scaled_le _ (by omega) hlo hhi, decide_eq_true_iff, rfl⟩

/-! ### SETUP STREAM (R2) -/

/-- The 16-bit field at the front of a payload is read back. -/
theorem halfAt_enc16_append {n : Nat} (h : n < 65536) (p : List Byte) : halfAt (enc16 n ++ p) 0 = n :=
  ofNat16_toNat h

/-- The byte behind a 16-bit field is read back. -/
theorem byteAt_enc16_append_enc8 (m : Nat) {n : Nat} (h : n < 256) : byteAt (enc16 m ++ enc8 n) 2 = n :=
  ofNat8_toNat h

/-- R2's condition for acceptance: no sweep entry stands and every stack slot is FREE. -/
theorem isQuiet_iff (s : State) :
    isQuiet s = true ↔ s.sweeps = [] ∧ ∀ k : Fin Config.stackSlots, s.slots[k] = none := by
  simp only [isQuiet, Bool.and_eq_true, List.isEmpty_iff, List.all_eq_true, Option.isNone_iff_eq_none]
  refine and_congr_right fun _ => ⟨fun h k => h _ (by simp), fun h a ha => ?_⟩
  obtain ⟨i, hi, rfl⟩ := List.getElem_of_mem ha
  exact h ⟨i, by simpa using hi⟩

/-- A SETUP STREAM with its two fields. -/
def setupFrame (tag : Byte) (channels interval : Nat) : Frame :=
  { kind := 32, tag := tag, payload := enc16 channels ++ enc8 interval }

theorem serveSetupStream_of_bad_value (s : State) (tag : Byte) {channels interval : Nat} (hchannels : channels < 65536)
    (hinterval : interval < 256) (h : 1024 < channels ∨ 3 < interval) :
    serveSetupStream (setupFrame tag channels interval) s =
      s.pushReply .record (setupFrame tag channels interval) .badValue (setupFields s) := by
  have hhalf : halfAt (setupFrame tag channels interval).payload 0 = channels := halfAt_enc16_append hchannels _
  have hbyte : byteAt (setupFrame tag channels interval).payload 2 = interval := byteAt_enc16_append_enc8 _ hinterval
  unfold serveSetupStream
  rw [hhalf, hbyte]
  by_cases h3 : 3 < interval
  · rw [asFin_of_le h3]
  · rw [asFin_of_lt (by omega : interval < 4)]
    exact if_pos (h.resolve_right h3)

/-- With both values in range only R2's condition decides. -/
theorem serveSetupStream_of_good_value (s : State) (tag : Byte) {channels : Nat} (hchannels : channels ≤ 1024)
    (code : Fin 4) :
    serveSetupStream (setupFrame tag channels code) s =
      if isQuiet s then
        (setupStream channels code s).pushReply .record (setupFrame tag channels code) .done
          (setupFields (setupStream channels code s))
      else s.pushReply .record (setupFrame tag channels code) .busy (setupFields s) := by
  have hhalf : halfAt (setupFrame tag channels code).payload 0 = channels := halfAt_enc16_append (by omega) _
  have hbyte : byteAt (setupFrame tag channels code).payload 2 = code := byteAt_enc16_append_enc8 _ (by omega)
  unfold serveSetupStream
  rw [hhalf, hbyte, asFin_val]
  exact if_neg (Nat.not_lt.2 hchannels)

/-- The state with a request taken from the Record Link's buffer, `rest` being left there. -/
def State.takeRecord (s : State) (rest : List Frame) : State := { s with record := { s.record with input := rest } }

/-- A SETUP STREAM at the front of the Record Link's buffer has the right length and is served, the frame taken. -/
theorem exec_setupStream {s : State} {tag : Byte} {channels interval : Nat} {rest : List Frame}
    (h : RecordRequest s 32 tag (enc16 channels ++ enc8 interval) rest) :
    exec .setupStream s = .next (serveSetupStream (setupFrame tag channels interval) (s.takeRecord rest)) :=
  congrArg Host.Outcome.next (request_record h 32 (fixedLength 3) serveSetupStream)

/-- The REPLY to a taken request. -/
theorem State.takeRecord_pushReply {s : State} (hup : s.record.up = true) (rest : List Frame) (f : Frame) (c : Code)
    (r : List Byte) : (s.takeRecord rest).pushReply .record f c r = s.answerRecord rest (.reply f.tag f.kind c r) :=
  State.pushReply_record_up (s := s.takeRecord rest) hup f c r

/-- The effects of SETUP STREAM do not touch the Record Link. -/
theorem setupStream_takeRecord (channels : Nat) (code : Fin 4) (s : State) (rest : List Frame) :
    setupStream channels code (s.takeRecord rest) = (setupStream channels code s).takeRecord rest := rfl

theorem setupFields_takeRecord (s : State) (rest : List Frame) : setupFields (s.takeRecord rest) = setupFields s := rfl

theorem isQuiet_takeRecord (s : State) (rest : List Frame) : isQuiet (s.takeRecord rest) = isQuiet s := rfl

/-- Settles O39: a value out of range, else a part that is not quiet, else the effects. -/
theorem setupStreamRules : Obligations.SetupStreamRules := by
  intro s tag channels interval rest hreq hchannels hinterval old quiet
  rw [exec_setupStream hreq]
  obtain ⟨hup, -, -⟩ := hreq
  refine ⟨fun hbad => ?badValue, fun hch hint hbusy => ?busy, fun code hch hcode hquiet => ?done⟩
  case badValue =>
    rw [serveSetupStream_of_bad_value _ _ hchannels hinterval hbad, State.takeRecord_pushReply hup,
      setupFields_takeRecord]
    rfl
  case busy =>
    rw [serveSetupStream_of_good_value _ _ hch ⟨interval, by omega⟩, isQuiet_takeRecord,
      if_neg (mt (isQuiet_iff s).1 hbusy), State.takeRecord_pushReply hup, setupFields_takeRecord]
    rfl
  case done =>
    subst hcode
    rw [serveSetupStream_of_good_value _ _ hch code, isQuiet_takeRecord, if_pos ((isQuiet_iff s).2 hquiet),
      setupStream_takeRecord, setupFields_takeRecord,
      State.takeRecord_pushReply (s := setupStream channels code s) hup]
    exact ⟨_, _, rfl, rfl, rfl, fun i => mapVec_getElem resetChannel s.monitor.table i i.isLt,
      fun fl => mapVec_getElem _ s.fleets fl fl.isLt⟩

end Sys2Proof.Machine

/-! PROOFS. The Channel Monitor (chapter 2): what a handed row does to the table, and what an interval completion does
to one entry. -/

namespace Sys2Proof.Machine

/-! ### Rows (R29, R30) -/

/-- The row position the monitor counts from: before the first row it is 0 already. -/
theorem Monitor.ite_origin_position {m : Monitor} (h : m.origin = none → m.position = 0) :
    (if m.origin = none then 0 else m.position) = m.position :=
  ite_eq_right_iff.2 fun hnone => (h hnone).symm

/-- A handed row sets a missing origin, moves the position on and, at position 1,023, completes the interval. -/
theorem Monitor.takeRow_eq {m : Monitor} (hpos : m.position ≤ 1023) (horig : m.origin = none → m.position = 0)
    (channels : Nat) (ssn : Ssn) (gap : Bool) (words : List RingWord) :
    m.takeRow channels ssn gap words =
      { table := if m.position = 1023
          then mapFirstVec completeInterval channels (zipFirstVec (takeSample gap) m.table words)
          else zipFirstVec (takeSample gap) m.table words
        origin := some (m.origin.getD ssn)
        position := (m.position + 1) % 1024 } := by
  have hrows : Config.intervalRows = 1024 := rfl
  simp only [Monitor.takeRow, ite_origin_position horig, hrows]
  by_cases hlast : m.position = 1023
  · simp [hlast]
  · have hnext : (m.position + 1) % 1024 = m.position + 1 := Nat.mod_eq_of_lt (by omega)
    rw [if_neg (by omega), if_neg hlast, hnext]

/-- The entries after a handed row: each has taken its word, and those below C complete a full interval. -/
theorem Monitor.takeRow_table_getElem {m : Monitor} (hpos : m.position ≤ 1023)
    (horig : m.origin = none → m.position = 0) (channels : Nat) (ssn : Ssn) (gap : Bool) (words : List RingWord)
    (i : Fin Config.channels) :
    (m.takeRow channels ssn gap words).table[i] =
      if m.position = 1023 ∧ i.val < channels
      then completeInterval (zipFirstVec (takeSample gap) m.table words)[i]
      else (zipFirstVec (takeSample gap) m.table words)[i] := by
  rw [takeRow_eq hpos horig]
  by_cases hlast : m.position = 1023
  · simp only [hlast, true_and]
    exact mapFirstVec_getElem _ _ _ _ i.isLt
  · simp only [hlast, false_and, if_false]

/-- A test of the first `k` entries of a table finds one exactly where an index below `k` has it. -/
theorem any_take_toList_iff {α : Type} {n : Nat} (p : α → Bool) (k : Nat) (v : Vector α n) :
    (v.toList.take k).any p = true ↔ ∃ i : Fin n, i.val < k ∧ p v[i] = true := by
  simp only [List.any_eq_true, List.mem_take_iff_getElem]
  constructor
  · rintro ⟨_, ⟨i, hi, rfl⟩, hp⟩
    have hlt : i < k ∧ i < n := by simpa using hi
    exact ⟨⟨i, hlt.2⟩, hlt.1, by simpa using hp⟩
  · rintro ⟨i, hi, hp⟩
    exact ⟨v[i], ⟨i, by simpa using hi, by simp⟩, hp⟩

/-- A row raises CHANNEL_CHANGE exactly where it completes an interval at which an entry below C raises it. -/
theorem Monitor.rowRaises_iff {m : Monitor} (horig : m.origin = none → m.position = 0) (channels : Nat) (gap : Bool)
    (words : List RingWord) :
    m.rowRaises channels gap words = true ↔ m.position = 1023 ∧ ∃ i : Fin Config.channels, i.val < channels ∧
      raisesChange (zipFirstVec (takeSample gap) m.table words)[i] = true := by
  have hlast : m.position + 1 = Config.intervalRows ↔ m.position = 1023 := Nat.succ_inj
  simp only [Monitor.rowRaises, ite_origin_position horig, Bool.and_eq_true, decide_eq_true_iff, hlast,
    any_take_toList_iff]

/-! ### Interval completion (R31 to R36) -/

/-- The level moves the entry to DEAD: a NORMAL entry's fourth low interval in a row (R32). -/
abbrev Channel.EntersDead (level : Nat) (c : Channel) : Prop :=
  level < c.deadThreshold ∧ c.monitor = .normal ∧ c.lowRun = 3

/-- The dead test as one update. A run of 4 stands with DEAD alone, so an entry at run 3 is NORMAL and one at run 4 is
DEAD already. -/
theorem judgeDead_eq {c : Channel} (hrun : c.lowRun ≤ 4) (hdead : c.monitor = .dead ↔ c.lowRun = 4) (level : Nat) :
    judgeDead level c = { c with
      lowRun := if level < c.deadThreshold then min 4 (c.lowRun + 1) else 0
      monitor := if level < c.deadThreshold then (if c.lowRun = 3 then .dead else c.monitor) else .normal
      latched := { c.latched with deadSeen := c.latched.deadSeen || decide (c.EntersDead level) } } := by
  unfold judgeDead
  by_cases hlow : level < c.deadThreshold
  case neg => simp [Channel.EntersDead, hlow]
  by_cases hthree : c.lowRun = 3
  · have hnormal : c.monitor = .normal := by
      cases hm : c.monitor with
      | normal => rfl
      | dead => have := hdead.1 hm; omega
    simp [Channel.EntersDead, hlow, hthree, hnormal]
  · have hstays (hfull : 3 ≤ c.lowRun) : c.monitor = .dead := hdead.2 (by omega)
    simp +contextual [Channel.EntersDead, hlow, hthree, hstays]

/-- The noise test as one update. -/
theorem judgeNoise_eq (level : Nat) (c : Channel) : judgeNoise level c = { c with
    latched := { c.latched with noisySeen := c.latched.noisySeen || decide (c.noiseThreshold < level) } } := by
  unfold judgeNoise
  split <;> simp [*]

theorem completeInterval_of_inactive {c : Channel} (h : c.active = false) : completeInterval c = c := by
  simp [completeInterval, h]

theorem completeInterval_of_partial {c : Channel} (h : c.active = true) (hpartial : c.partialMark = true) :
    completeInterval c = { c with partialMark := false, intervalSum := 0 } := by
  simp [completeInterval, h, hpartial]

theorem completeInterval_of_whole {c : Channel} (h : c.active = true) (hwhole : c.partialMark = false) :
    completeInterval c = judgeNoise (intervalLevel c.intervalSum) (judgeDead (intervalLevel c.intervalSum)
      { c with lastLevel := intervalLevel c.intervalSum, intervalSum := 0 }) := by
  simp [completeInterval, h, hwhole]

/-- A judged interval completion as one update of the entry. -/
theorem completeInterval_of_judged {c : Channel} (h : c.active = true) (hwhole : c.partialMark = false) (hok : c.ok) :
    completeInterval c =
      let level := intervalLevel c.intervalSum
      { c with
        lowRun := if level < c.deadThreshold then min 4 (c.lowRun + 1) else 0
        monitor := if level < c.deadThreshold then (if c.lowRun = 3 then .dead else c.monitor) else .normal
        lastLevel := level
        latched := { c.latched with
          deadSeen := c.latched.deadSeen || decide (c.EntersDead level)
          noisySeen := c.latched.noisySeen || decide (c.noiseThreshold < level) }
        intervalSum := 0 } := by
  obtain ⟨-, -, hrun, -, hdead, -⟩ := hok
  rw [completeInterval_of_whole h hwhole,
    judgeDead_eq (c := { c with lastLevel := intervalLevel c.intervalSum, intervalSum := 0 }) hrun hdead, judgeNoise_eq]

/-- An entry whose monitor state and latches a completion leaves raises nothing. -/
theorem raisesChange_of_unjudged {c : Channel} (hmonitor : (completeInterval c).monitor = c.monitor)
    (hlatched : (completeInterval c).latched = c.latched) : raisesChange c = false := by
  cases hm : c.monitor <;> simp [raisesChange, hmonitor, hlatched, hm]

/-- A judged completion raises CHANNEL_CHANGE where the entry enters DEAD or NOISY_SEEN is latched anew. -/
theorem raisesChange_of_judged {c : Channel} (h : c.active = true) (hwhole : c.partialMark = false) (hok : c.ok) :
    raisesChange c = true ↔ c.EntersDead (intervalLevel c.intervalSum) ∨
      (c.noiseThreshold < intervalLevel c.intervalSum ∧ c.latched.noisySeen = false) := by
  have hdead : c.monitor = .normal ∧ (completeInterval c).monitor = .dead ↔
      c.EntersDead (intervalLevel c.intervalSum) := by
    rw [completeInterval_of_judged h hwhole hok]
    by_cases hlow : intervalLevel c.intervalSum < c.deadThreshold
    case neg => simp [Channel.EntersDead, hlow]
    by_cases hthree : c.lowRun = 3
    · simp [Channel.EntersDead, hlow, hthree]
    · simp +contextual [Channel.EntersDead, hthree]
  have hnoisy : c.latched.noisySeen = false ∧ (completeInterval c).latched.noisySeen = true ↔
      c.noiseThreshold < intervalLevel c.intervalSum ∧ c.latched.noisySeen = false := by
    rw [completeInterval_of_judged h hwhole hok]
    cases c.latched.noisySeen <;> simp
  rw [← hdead, ← hnoisy]
  simp [raisesChange]

/-- Settles O28: the row by its position in the interval, the completion by the entry's active flag and partial mark. -/
theorem channelsAreMonitored : Obligations.ChannelsAreMonitored := by
  refine ⟨fun m channels ssn gap words hpos horig => ?row, fun c hactive => ?inactive,
    fun c hactive hpartial => ?skipped, fun c hactive hwhole hok => ?judged⟩
  case row =>
    intro d taken entry
    have hentry (i : Fin Config.channels) : (zipFirstVec (takeSample gap) m.table words)[i] = entry i := by
      refine (zipFirstVec_getElem (takeSample gap) m.table words i.val i.isLt).trans ?_
      cases hword : words[i.val]? <;> simp only [entry, hword] <;> rfl
    have heq : d = _ := Monitor.takeRow_eq hpos horig channels ssn gap words
    refine ⟨by rw [heq], by rw [heq], fun i => ?_, ?_⟩
    · rw [← hentry i]
      exact Monitor.takeRow_table_getElem hpos horig channels ssn gap words i
    · simp only [← hentry]
      exact Monitor.rowRaises_iff horig channels gap words
  case inactive =>
    have hcomplete := completeInterval_of_inactive hactive
    exact ⟨hcomplete, raisesChange_of_unjudged (by rw [hcomplete]) (by rw [hcomplete])⟩
  case skipped =>
    have hcomplete := completeInterval_of_partial hactive hpartial
    exact ⟨hcomplete, raisesChange_of_unjudged (by rw [hcomplete]) (by rw [hcomplete])⟩
  case judged =>
    intro level d enters
    have hd : d = _ := completeInterval_of_judged hactive hwhole hok
    have hraises : raisesChange c = true ↔ enters ∨ (c.noiseThreshold < level ∧ c.latched.noisySeen = false) :=
      raisesChange_of_judged hactive hwhole hok
    rw [hd]
    refine ⟨rfl, rfl, hwhole, fun hlow => ⟨if_pos hlow, if_pos hlow⟩,
      fun hhigh => ⟨if_neg (Nat.not_lt.2 hhigh), if_neg (Nat.not_lt.2 hhigh)⟩, ?_, ?_, rfl, rfl, hraises, hactive,
      rfl, rfl, rfl⟩
    · exact (Bool.or_eq_true _ _).to_iff.trans (or_congr_right decide_eq_true_iff)
    · exact (Bool.or_eq_true _ _).to_iff.trans (or_congr_right decide_eq_true_iff)

end Sys2Proof.Machine

/-! PROOFS. The Pilot Library (chapter 3): PILOT QUERY, PILOT PURGE and the commit completion. -/

namespace Sys2Proof.Machine

/-! ### Requests of the Source Link -/

/-- The state with a request taken from the Source Link's buffer, `rest` being left there. -/
def State.takeSource (s : State) (rest : List Frame) : State := { s with source := { s.source with input := rest } }

/-- The REPLY to a taken request. -/
theorem State.takeSource_pushReply {s : State} (hup : s.source.up = true) (rest : List Frame) (f : Frame) (c : Code)
    (r : List Byte) : (s.takeSource rest).pushReply .source f c r = s.answerSource rest (.reply f.tag f.kind c r) :=
  State.pushReply_source_up (s := s.takeSource rest) hup f c r

/-! ### PILOT QUERY (R54) -/

/-- A PILOT QUERY with its slot number. -/
def pilotQueryFrame (tag : Byte) (slot : Nat) : Frame := { kind := 19, tag := tag, payload := enc8 slot }

theorem exec_pilotQuery {s : State} {tag : Byte} {slot : Nat} {rest : List Frame}
    (h : SourceRequest s 19 tag (enc8 slot) rest) :
    exec .pilotQuery s = .next (servePilotQuery (pilotQueryFrame tag slot) (s.takeSource rest)) :=
  congrArg Host.Outcome.next (request_source h 19 (fixedLength 1) servePilotQuery)

theorem servePilotQuery_of_no_slot (s : State) (tag : Byte) {slot : Nat} (hslot : 15 < slot) (hbyte : slot < 256) :
    servePilotQuery (pilotQueryFrame tag slot) s = s.pushReply .source (pilotQueryFrame tag slot) .badValue [] := by
  have hread : byteAt (pilotQueryFrame tag slot).payload 0 = slot := ofNat8_toNat hbyte
  unfold servePilotQuery
  rw [hread, asFin_of_le hslot]

theorem servePilotQuery_of_slot (s : State) (tag : Byte) (p : Fin Config.pilots) :
    servePilotQuery (pilotQueryFrame tag p) s =
      s.pushReply .source (pilotQueryFrame tag p) .done (pilotQueryFields p s.pilots[p]) := by
  have hread : byteAt (pilotQueryFrame tag p).payload 0 = p := ofNat8_toNat (p.isLt.trans (by decide))
  unfold servePilotQuery
  rw [hread, asFin_val]

/-- The fields of a PILOT QUERY's reply that depend on the slot's state: the state, then S, interval code, samples
received, energy and AUTO shift, each where R40 gives it. -/
def pilotPhaseFields (phase : PilotPhase) : List Byte :=
  enc8 phase.number ++ encOption 2 (phase.length?.map enc16) ++ encOption 1 (phase.interval?.map fun i => enc8 i) ++
    encOption 2 (phase.received?.map enc16) ++ encOption 8 (phase.energy?.map enc64) ++
    encOption 1 (phase.energy?.map fun e => enc8 (autoShift e))

theorem pilotQueryFields_eq (k : Fin Config.pilots) (p : PilotSlot) : pilotQueryFields k p =
    enc8 k ++ pilotPhaseFields p.phase ++ enc16 p.generation.toNat ++ enc8 p.pins ++ enc8 p.lastResult.number := by
  simp only [pilotQueryFields, pilotOpenFields, pilotPhaseFields, List.append_assoc]

/-! ### PILOT PURGE (R55) -/

/-- A set carried as bits has member `i` in bit `i`. -/
theorem bitSet_testBit (l : List Bool) (i : Nat) : (bitSet l).testBit i = l.getD i false := by
  induction l generalizing i with
  | nil => simp [bitSet]
  | cons b l ih =>
    have hbit : bitSet (b :: l) = Nat.bit b (bitSet l) := by
      cases b <;> simp [bitSet, Nat.bit, Nat.add_comm]
    cases i with
    | zero => rw [hbit, Nat.testBit_bit_zero, List.getD_cons_zero]
    | succ i => rw [hbit, Nat.testBit_bit_succ, ih, List.getD_cons_succ]

theorem bitSet_lt (l : List Bool) : bitSet l < 2 ^ l.length := by
  induction l with
  | nil => simp [bitSet]
  | cons b l ih =>
    rw [bitSet, List.length_cons, Nat.pow_succ]
    split <;> omega

/-- Sixteen members fit in a 16-bit set. -/
theorem purgeSet_toNat (set : Nat) (v : Vector PilotSlot Config.pilots) (a : PurgeAction) :
    (BitVec.ofNat 16 (purgeSet set v a)).toNat = purgeSet set v a := by
  have hlt : purgeSet set v a < 2 ^ 16 := (bitSet_lt _).trans_eq (by rw [List.length_map, List.length_finRange])
  rw [BitVec.toNat_ofNat, Nat.mod_eq_of_lt hlt]

/-- A slot is in the set of one action where it is named and R55's table gives it that action. -/
theorem purgeSet_getLsbD (set : BitVec 16) (v : Vector PilotSlot Config.pilots) (a : PurgeAction)
    (p : Fin Config.pilots) : (BitVec.ofNat 16 (purgeSet set.toNat v a)).getLsbD p = true ↔
      set.getLsbD p = true ∧ purgeAction v[p] = a := by
  have hp : p.val < 16 := p.isLt
  rw [BitVec.getLsbD_ofNat, purgeSet, bitSet_testBit]
  simp [inSlotSet, hp]

/-- A purge acts on each slot by itself. -/
theorem purgeSlots_getElem (set : BitVec 16) (v : Vector PilotSlot Config.pilots) (p : Fin Config.pilots) :
    (purgeSlots set.toNat v)[p] = purgeSlot (set.getLsbD p) v[p] := by
  refine (zipFirstVec_getElem _ v _ p.val p.isLt).trans ?_
  simp [inSlotSet]

theorem purgeSlot_of_purged {p : PilotSlot} (h : purgeAction p = .purged) :
    purgeSlot true p = { p with phase := .empty, lastResult := .purged } := by
  simp [purgeSlot, h]

theorem purgeSlot_of_kept {named : Bool} {p : PilotSlot} (h : ¬ (named = true ∧ purgeAction p = .purged)) :
    purgeSlot named p = p :=
  if_neg (by simpa using h)

/-- R55: FILLING, or READY with pin count 0, is emptied. -/
theorem purgeAction_eq_purged_iff (p : PilotSlot) : purgeAction p = .purged ↔
    (∃ a b c d, p.phase = .filling a b c d) ∨ (p.phase.isReady = true ∧ p.pins = 0) := by
  unfold purgeAction
  cases hphase : p.phase with
  | empty | filling | committing => simp [PilotPhase.isReady]
  | ready => by_cases hpins : p.pins = 0 <;> simp [PilotPhase.isReady, hpins]

/-- R55: COMMITTING, or READY with pin count 1 or more, is skipped. -/
theorem purgeAction_eq_skipped_iff (p : PilotSlot) : purgeAction p = .skipped ↔
    (∃ a b c, p.phase = .committing a b c) ∨ (p.phase.isReady = true ∧ 1 ≤ p.pins) := by
  unfold purgeAction
  cases hphase : p.phase with
  | empty | filling | committing => simp [PilotPhase.isReady]
  | ready => by_cases hpins : p.pins = 0 <;> simp [PilotPhase.isReady, hpins, Nat.one_le_iff_ne_zero]

/-- A PILOT PURGE writes the slots and answers with the two sets. -/
theorem exec_pilotPurge {s : State} {set : BitVec 16} {tag : Byte} {rest : List Frame}
    (h : SourceRequest s 20 tag (enc16 set.toNat) rest) :
    exec .pilotPurge s = .next ({ s with pilots := purgeSlots set.toNat s.pilots }.answerSource rest
      (.reply tag 20 .done (enc16 (purgeSet set.toNat s.pilots .purged) ++
        enc16 (purgeSet set.toNat s.pilots .skipped)))) := by
  have hread : halfAt (enc16 set.toNat) 0 = set.toNat := ofNat16_toNat set.isLt
  have hserve : exec .pilotPurge s = .next (servePilotPurge ⟨20, tag, enc16 set.toNat⟩ (s.takeSource rest)) :=
    congrArg Host.Outcome.next (request_source h 20 (fixedLength 2) servePilotPurge)
  obtain ⟨hup, -⟩ := h
  rw [hserve]
  unfold servePilotPurge
  rw [hread]
  exact congrArg Host.Outcome.next
    (State.takeSource_pushReply (s := { s with pilots := purgeSlots set.toNat s.pilots }) hup rest _ _ _)

/-- Settles O43: the query by whether the slot exists and then by its state, the purge slot by slot. -/
theorem pilotQueryAndPurge : Obligations.PilotQueryAndPurge := by
  refine ⟨fun s slot tag rest hslot hbyte hreq => ?noSlot, fun s p tag rest hreq => ?query,
    fun s set tag rest hreq => ?purge⟩
  case noSlot =>
    rw [exec_pilotQuery hreq, servePilotQuery_of_no_slot _ _ hslot hbyte, State.takeSource_pushReply hreq.1]
    rfl
  case query =>
    intro answers none9
    have hanswers : answers (pilotPhaseFields (s.pilots[p]).phase) := by
      have hexec := exec_pilotQuery hreq
      rw [servePilotQuery_of_slot, State.takeSource_pushReply hreq.1, pilotQueryFields_eq] at hexec
      exact hexec
    refine ⟨fun hphase => ?_, fun n i samples timer hphase => ?_, fun n i samples hphase => ?_,
      fun n i samples energy hphase => ?_⟩
    all_goals
      rw [hphase] at hanswers
      exact hanswers
  case purge =>
    refine ⟨purgeSlots set.toNat s.pilots, BitVec.ofNat 16 (purgeSet set.toNat s.pilots .purged),
      BitVec.ofNat 16 (purgeSet set.toNat s.pilots .skipped), ?_, fun p => ?_⟩
    · rw [purgeSet_toNat, purgeSet_toNat]
      exact exec_pilotPurge hreq
    · intro slot free busy
      have hfree : purgeAction slot = .purged ↔ free := purgeAction_eq_purged_iff slot
      have hbusy : purgeAction slot = .skipped ↔ busy := purgeAction_eq_skipped_iff slot
      rw [purgeSlots_getElem, ← hfree, ← hbusy]
      refine ⟨purgeSet_getLsbD .., purgeSet_getLsbD .., fun hnamed haction => ?_, purgeSlot_of_kept⟩
      rw [hnamed]
      exact purgeSlot_of_purged haction

/-! ### Energy and AUTO shift (R47, R50) -/

/-- R47's energy, the squares taken with sign. -/
theorem pilotEnergy_cast (samples : List (BitVec 16)) :
    (pilotEnergy samples : Int) = (samples.map fun x => x.toInt * x.toInt).sum := by
  induction samples with
  | nil => rfl
  | cons x samples ih =>
    have hsquare : ((x.toInt.natAbs ^ 2 : Nat) : Int) = x.toInt * x.toInt := by
      rw [Nat.cast_pow, Int.natCast_natAbs, sq_abs, sq]
    rw [List.map_cons, List.sum_cons, ← ih, ← hsquare]
    exact Nat.cast_add _ _

/-- The bit length is the one `b` with the number between 2^(b-1) and 2^b. -/
theorem bitLength_eq {n b : Nat} (hb : 1 ≤ b) (hlo : 2 ^ (b - 1) ≤ n) (hhi : n < 2 ^ b) : bitLength n = b := by
  have hpos : n ≠ 0 := (Nat.two_pow_pos _).trans_le hlo |>.ne'
  have hlog : Nat.log2 n = b - 1 :=
    (Nat.log2_eq_iff hpos).2 ⟨hlo, by rwa [Nat.sub_add_cancel hb]⟩
  rw [bitLength, if_neg hpos, hlog, Nat.sub_add_cancel hb]

/-! ### The commit completion (R48) -/

/-- An event that changes the state and raises one cause, without results. -/
theorem Event.finish_change_addCause (s : State) (f : State → State) (c : Cause) :
    (((Event.start s).change f).addCause c).finish = (f s).raise c.set := by
  simp [Event.finish]

theorem commitCompletion_of_energy {s : State} {p : Fin Config.pilots} {n : Nat} {i : Fin 4}
    {samples : List (BitVec 16)} (hphase : (s.pilots[p]).phase = .committing n i samples)
    (h : 1 ≤ pilotEnergy samples) :
    commitCompletion p s = s.setPilot p { s.pilots[p] with
      phase := .ready n i samples (pilotEnergy samples), generation := (s.pilots[p]).generation + 1,
      lastResult := .committed } := by
  simp only [commitCompletion, hphase, if_pos h]

theorem commitCompletion_of_no_energy {s : State} {p : Fin Config.pilots} {n : Nat} {i : Fin 4}
    {samples : List (BitVec 16)} (hphase : (s.pilots[p]).phase = .committing n i samples)
    (h : pilotEnergy samples = 0) :
    commitCompletion p s =
      (s.setPilot p { s.pilots[p] with phase := .empty, lastResult := .zeroEnergy }).raise 0x20#8 := by
  have hnone : ¬ 1 ≤ pilotEnergy samples := by omega
  simp only [commitCompletion, hphase, if_neg hnone, Event.finish_change_addCause]
  rfl

theorem exec_commitCompletion (p : Fin Config.pilots) (s : State) :
    exec (.commitCompletion p) s = .next (commitCompletion p s) := by
  have hexec : exec (.commitCompletion p) s = execCommitCompletion p s := rfl
  rw [hexec, execCommitCompletion, asFin_val]

/-- Settles O44: the AUTO shift through the bit length, the commit by whether the energy is 0. -/
theorem commitsJudgeEnergy : Obligations.CommitsJudgeEnergy := by
  refine ⟨fun energy b hb hlo hhi => ?shift, fun s p n i samples energy hphase henergy => ?commit⟩
  case shift =>
    have hauto : autoShift energy = min 40 (b - 17) := by rw [autoShift, bitLength_eq hb hlo hhi]
    refine ⟨by omega, fun hle => ?_, rfl, fun cs => rfl⟩
    have hlength : b - 1 < 45 :=
      (Nat.pow_lt_pow_iff_right (by decide)).1 (hlo.trans_lt (hle.trans_lt (by decide)))
    omega
  case commit =>
    have hsum : energy = pilotEnergy samples := Int.ofNat_inj.1 (henergy.trans (pilotEnergy_cast samples).symm)
    rw [exec_commitCompletion, hsum]
    exact ⟨fun h => congrArg _ (commitCompletion_of_energy hphase h),
      fun h => congrArg _ (commitCompletion_of_no_energy hphase h)⟩

end Sys2Proof.Machine

/-! PROOFS. SWEEP CANCEL (chapter 5): the answer by the stage of the named entry. -/

namespace Sys2Proof.Machine

/-! ### Taking the frame and resolving touch different parts -/

/-- A resolution does not touch the Source Link. -/
theorem State.resolvedAs_takeSource (s : State) (rest : List Frame) (e : SweepEntry) (out : SweepOutcome) :
    (s.takeSource rest).resolvedAs e out = (s.resolvedAs e out).takeSource rest := by
  unfold State.resolvedAs
  have hslots : (s.takeSource rest).slots = s.slots := rfl
  rw [hslots]
  cases s.slots[e.slot] with
  | none => cases e.stage <;> rfl
  | some st =>
    dsimp only
    cases st.drainsWith <;> cases e.stage <;> rfl

/-- A resolution leaves the Source Link as it is. -/
theorem State.resolvedAs_source {s : State} (hdistinct : DistinctNumbers s) (e : SweepEntry) {out : SweepOutcome}
    (hout : out ≠ .droppedClear) : (s.resolvedAs e out).source = s.source := by
  have haside := (resolve_aside out none e (Event.start s)).source
  rwa [resolve_eq hout none e _ hdistinct] at haside

/-! ### SWEEP CANCEL (R74) -/

/-- A SWEEP CANCEL with its sweep number. -/
def sweepCancelFrame (tag : Byte) (number : Word32) : Frame := { kind := 23, tag := tag, payload := encWord number }

theorem exec_sweepCancel {s : State} {tag : Byte} {number : Word32} {rest : List Frame}
    (h : SourceRequest s 23 tag (encWord number) rest) :
    exec .sweepCancel s = .next (serveSweepCancel (sweepCancelFrame tag number) (s.takeSource rest)) :=
  congrArg Host.Outcome.next (request_source h 23 (fixedLength 4) serveSweepCancel)

theorem wordAt_sweepCancelFrame (tag : Byte) (number : Word32) :
    wordAt (sweepCancelFrame tag number).payload 0 = number := encWord_toNat number

theorem State.findSweep_eq_none {s : State} {number : Word32} (h : ∀ e ∈ s.sweeps, e.number ≠ number) :
    s.findSweep number = none := by
  simpa [State.findSweep] using h

/-- Where no two entries share a number, an entry is the one found under its number. -/
theorem State.findSweep_eq_some {s : State} (hdistinct : DistinctNumbers s) {e : SweepEntry} (he : e ∈ s.sweeps) :
    s.findSweep e.number = some e := by
  obtain ⟨x, hx⟩ : ∃ x, s.findSweep e.number = some x :=
    Option.isSome_iff_exists.1 (List.find?_isSome.2 ⟨e, he, by simp⟩)
  have hnumber : x.number = e.number := by simpa using List.find?_some hx
  rw [hx, List.inj_on_of_nodup_map hdistinct (List.mem_of_find?_eq_some hx) he hnumber]

theorem Stage.isMerging_iff (stage : Stage) : stage.isMerging = true ↔ ∃ l, stage = .merging l := by
  cases stage <;> simp [Stage.isMerging]

theorem serveSweepCancel_of_unknown {s : State} {number : Word32} (h : s.findSweep number = none) (tag : Byte) :
    serveSweepCancel (sweepCancelFrame tag number) s =
      s.pushReply .source (sweepCancelFrame tag number) .sweepUnknown [] := by
  unfold serveSweepCancel
  rw [wordAt_sweepCancelFrame, h]

theorem serveSweepCancel_of_merging {s : State} {number : Word32} {e : SweepEntry} (h : s.findSweep number = some e)
    (hstage : e.stage.isMerging = true) (tag : Byte) :
    serveSweepCancel (sweepCancelFrame tag number) s =
      s.pushReply .source (sweepCancelFrame tag number) .tooLate [] := by
  unfold serveSweepCancel
  rw [wordAt_sweepCancelFrame, h]
  exact if_pos hstage

/-- Outside MERGING the entry is resolved, with the REPLY in front of its SWEEP RESULT. -/
theorem serveSweepCancel_of_resolved {s : State} {number : Word32} {e : SweepEntry} (h : s.findSweep number = some e)
    (hstage : ¬ e.stage.isMerging = true) (hdistinct : DistinctNumbers s) (tag : Byte) :
    serveSweepCancel (sweepCancelFrame tag number) s =
      ((((s.resolvedAs e .cancelled).pushReply .source (sweepCancelFrame tag number) .done []).sendResult
        (e.result .cancelled none)).raise (resolutionRaises s e)) := by
  unfold serveSweepCancel
  rw [wordAt_sweepCancelFrame, h]
  refine (if_neg hstage).trans ?_
  rw [resolve_eq (by decide) none e (Event.start s) hdistinct]
  simp [Event.reply, Event.finish]

/-- Settles O51: the cancel by whether the number is found and then by the entry's stage. -/
theorem cancelsResolveSweeps : Obligations.CancelsResolveSweeps := by
  refine ⟨fun s number tag rest hreq hdistinct => ?cancel, fun s r => ⟨fun hup => ?up, fun hdown => ?down⟩⟩
  case cancel =>
    rw [exec_sweepCancel hreq]
    obtain ⟨hup, -⟩ := hreq
    refine ⟨fun hnone => ?_, fun e he hnumber => ?_⟩
    · rw [serveSweepCancel_of_unknown (State.findSweep_eq_none (s := s.takeSource rest) hnone),
        State.takeSource_pushReply hup]
      rfl
    · subst hnumber
      have hfind := State.findSweep_eq_some (s := s.takeSource rest) hdistinct he
      refine ⟨fun hmerging => ?_, fun hstage => ?_⟩
      · rw [serveSweepCancel_of_merging hfind ((Stage.isMerging_iff _).2 hmerging), State.takeSource_pushReply hup]
        rfl
      · have hother : ¬ e.stage.isMerging = true := fun h => by
          obtain ⟨l, hl⟩ := (Stage.isMerging_iff _).1 h
          exact hstage l hl
        have hupAfter : (s.resolvedAs e .cancelled).source.up = true := by
          rw [State.resolvedAs_source hdistinct e (by decide), hup]
        rw [serveSweepCancel_of_resolved hfind hother hdistinct, State.resolvedAs_takeSource,
          State.takeSource_pushReply hupAfter]
        rfl
  case up => simp [State.sendResult, PartnerLink.push_of_up hup]
  case down => simp [State.sendResult, PartnerLink.push_of_down hdown]

end Sys2Proof.Machine

/-! PROOFS. SWEEP ANNOUNCE (chapter 5): the checks of R65 in their order, and the two kinds of answer. -/

namespace Sys2Proof.Machine

/-! ### The frame and its fields -/

/-- A SWEEP ANNOUNCE with its four fields. -/
def announceFrame (tag : Byte) (fleet : Nat) (vp : Word32) (pilot : Nat) (t0 : Ssn) : Frame :=
  { kind := 21, tag := tag, payload := enc8 fleet ++ encWord vp ++ enc8 pilot ++ encWord t0 }

section Fields

variable (tag : Byte) (fleet : Nat) (vp : Word32) (pilot : Nat) (t0 : Ssn)

theorem byteAt_announceFrame_fleet (h : fleet < 256) :
    byteAt (announceFrame tag fleet vp pilot t0).payload 0 = fleet := ofNat8_toNat h

theorem byteAt_announceFrame_pilot (h : pilot < 256) :
    byteAt (announceFrame tag fleet vp pilot t0).payload 5 = pilot := ofNat8_toNat h

theorem wordAt_announceFrame_vp : wordAt (announceFrame tag fleet vp pilot t0).payload 1 = vp := encWord_toNat vp

theorem wordAt_announceFrame_t0 : wordAt (announceFrame tag fleet vp pilot t0).payload 6 = t0 := encWord_toNat t0

theorem asFin_announceFrame_fleet (fl : Fin Config.fleets) :
    asFin Config.fleets (byteAt (announceFrame tag fl vp pilot t0).payload 0) = some fl := by
  rw [byteAt_announceFrame_fleet _ _ _ _ _ (fl.isLt.trans (by decide)), asFin_val]

theorem asFin_announceFrame_pilot (p : Fin Config.pilots) :
    asFin Config.pilots (byteAt (announceFrame tag fleet vp p t0).payload 5) = some p := by
  rw [byteAt_announceFrame_pilot _ _ _ _ _ (p.isLt.trans (by decide)), asFin_val]

end Fields

theorem exec_sweepAnnounce {s : State} {tag : Byte} {fleet pilot : Nat} {vp : Word32} {t0 : Ssn} {rest : List Frame}
    (h : SourceRequest s 21 tag (enc8 fleet ++ encWord vp ++ enc8 pilot ++ encWord t0) rest) :
    exec .sweepAnnounce s =
      .next (serveSweepAnnounce (announceFrame tag fleet vp pilot t0) (s.takeSource rest)) :=
  congrArg Host.Outcome.next (request_source h 21 (fixedLength 10) serveSweepAnnounce)

/-! ### Checks 1 to 3: the values, the fleet record and the pilot's state (R65) -/

theorem serveSweepAnnounce_of_bad_value (s : State) (tag : Byte) {fleet pilot : Nat} (vp : Word32) (t0 : Ssn)
    (hfleet : fleet < 256) (hpilot : pilot < 256) (h : 7 < fleet ∨ 15 < pilot) :
    serveSweepAnnounce (announceFrame tag fleet vp pilot t0) s =
      refuseAnnounce (announceFrame tag fleet vp pilot t0) .badValue s := by
  unfold serveSweepAnnounce
  rw [byteAt_announceFrame_fleet _ _ _ _ _ hfleet, byteAt_announceFrame_pilot _ _ _ _ _ hpilot]
  rcases h with h | h
  · rw [asFin_of_le h]
  · rw [asFin_of_le h]
    cases asFin Config.fleets fleet <;> rfl

section Checks

variable {s : State} {fl : Fin Config.fleets} {p : Fin Config.pilots} {vp : Word32} {t0 : Ssn} {tag : Byte}

/-- Both numbers are in range, and the fleet's record is not defined. -/
theorem serveSweepAnnounce_of_undefined (h : (s.fleets[fl]).defined = false) :
    serveSweepAnnounce (announceFrame tag fl vp p t0) s =
      refuseAnnounce (announceFrame tag fl vp p t0) .fleetUndefined s := by
  unfold serveSweepAnnounce
  rw [asFin_announceFrame_fleet, asFin_announceFrame_pilot]
  exact if_neg (by rw [h]; exact Bool.false_ne_true)

theorem serveSweepAnnounce_of_not_ready (hdef : (s.fleets[fl]).defined = true)
    (h : (s.pilots[p]).phase.isReady = false) :
    serveSweepAnnounce (announceFrame tag fl vp p t0) s =
      refuseAnnounce (announceFrame tag fl vp p t0) .pilotNotReady s := by
  unfold serveSweepAnnounce
  rw [asFin_announceFrame_fleet, asFin_announceFrame_pilot]
  refine (if_pos hdef).trans ?_
  cases hphase : (s.pilots[p]).phase with
  | ready => rw [hphase] at h; exact absurd h (by simp [PilotPhase.isReady])
  | empty | filling | committing => rfl

variable {n : Nat} {i : Fin 4} {samples : List (BitVec 16)} {energy : Nat}

/-- A READY pilot of a defined fleet: checks 4 to 7 refuse, or the stack match decides. -/
theorem serveSweepAnnounce_of_ready (hdef : (s.fleets[fl]).defined = true)
    (hphase : (s.pilots[p]).phase = .ready n i samples energy) :
    serveSweepAnnounce (announceFrame tag fl vp p t0) s =
      (announceRefusal s fl i t0).elim (announceStack (announceFrame tag fl vp p t0) fl p n energy vp t0 s)
        fun code => refuseAnnounce (announceFrame tag fl vp p t0) code s := by
  unfold serveSweepAnnounce
  rw [asFin_announceFrame_fleet, asFin_announceFrame_pilot, wordAt_announceFrame_vp, wordAt_announceFrame_t0]
  refine (if_pos hdef).trans ?_
  simp only [hphase]
  cases announceRefusal s fl i t0 <;> rfl

end Checks

/-! ### Checks 4 to 7: interval code, T0 bounds, slip and table (R65) -/

section Refusal

variable {s : State} {fl : Fin Config.fleets} {i : Fin 4} {t0 : Ssn}

theorem announceRefusal_of_interval (h : i ≠ s.ingest.interval) :
    announceRefusal s fl i t0 = some .intervalMismatch := if_pos h

theorem announceRefusal_of_t0 (hinterval : i = s.ingest.interval) (h : t0InBounds s t0 = false) :
    announceRefusal s fl i t0 = some .t0OutOfRange := by
  simp [announceRefusal, hinterval, h]

theorem announceRefusal_of_slip (hinterval : i = s.ingest.interval) (ht0 : t0InBounds s t0 = true)
    (h : slipPasses s.fleets[fl] t0 = false) : announceRefusal s fl i t0 = some .slipTooShort := by
  rw [announceRefusal]
  simp only [hinterval, ht0, h, ne_eq, not_true, if_false, Bool.true_eq_false, if_true]

theorem announceRefusal_of_slip_passes (hinterval : i = s.ingest.interval) (ht0 : t0InBounds s t0 = true)
    (hslip : slipPasses s.fleets[fl] t0 = true) :
    announceRefusal s fl i t0 = if 32 ≤ s.sweeps.length then some .tableFull else none := by
  rw [announceRefusal]
  simp only [hinterval, ht0, hslip, ne_eq, not_true, if_false, Bool.true_eq_false]
  rfl

end Refusal

/-! ### Check 8: the stack match (R68) -/

section Match

variable {s : State} {fl : Fin Config.fleets} {vp : Word32}

theorem State.openStack_eq_some {k : Fin Config.stackSlots} {st : Stack} (hopen : (s.fleets[fl]).openSlot = some k)
    (hslot : s.slots[k] = some st) : s.openStack fl = some (k, st) := by
  unfold State.openStack
  simp only [hopen, hslot]

theorem State.openStack_eq_none (hopen : (s.fleets[fl]).openSlot = none) : s.openStack fl = none := by
  unfold State.openStack
  simp only [hopen]

theorem stackMatch_of_fold_full {k : Fin Config.stackSlots} {st : Stack} (h : s.openStack fl = some (k, st))
    (hvp : st.vp = vp) (hfold : 32 ≤ st.fold + st.pending) : stackMatch s fl vp = .refuse .foldFull := by
  unfold stackMatch
  simp only [h, if_pos hvp]
  exact if_neg (Nat.not_lt.2 hfold)

theorem stackMatch_of_listen {k : Fin Config.stackSlots} {st : Stack} (h : s.openStack fl = some (k, st))
    (hvp : st.vp = vp) (hfold : st.fold + st.pending < 32) (hlisten : (s.fleets[fl]).params.listen ≠ st.listen) :
    stackMatch s fl vp = .refuse .listenMismatch := by
  unfold stackMatch
  simp only [h, if_pos hvp]
  exact (if_pos hfold).trans (if_neg hlisten)

/-- No slot is FREE. -/
theorem matchFree_of_occupied (h : ∀ k : Fin Config.stackSlots, s.slots[k] ≠ none) :
    matchFree s = .refuse .noStackSlot := by
  have hnone : s.firstFree = none := by simpa [State.firstFree] using h
  rw [matchFree, hnone]

/-- A fleet without an open slot, or with one of another VP, needs a FREE slot. -/
theorem stackMatch_of_no_vp (h : (s.fleets[fl]).openSlot = none ∨
      ∃ k st, (s.fleets[fl]).openSlot = some k ∧ s.slots[k] = some st ∧ st.vp ≠ vp) :
    stackMatch s fl vp = matchFree s := by
  unfold stackMatch
  rcases h with hopen | ⟨k, st, hopen, hslot, hvp⟩
  · rw [State.openStack_eq_none hopen]
  · rw [State.openStack_eq_some hopen hslot]
    exact if_neg hvp

end Match

/-! ### The refused announcement (R65, R71) -/

theorem refuseAnnounce_of_ne {code : Code} (h : code ≠ .noStackSlot) (f : Frame) (s : State) :
    refuseAnnounce f code s = s.pushReply .source f code (ringBounds s) := by
  simp only [refuseAnnounce, decide_eq_false h, Event.addCauseIf, Event.reply]
  exact State.raise_zero _

/-- NO_STACK_SLOT raises SLOTS_EXHAUSTED behind its REPLY. -/
theorem refuseAnnounce_noStackSlot (f : Frame) (s : State) :
    refuseAnnounce f .noStackSlot s = (s.pushReply .source f .noStackSlot (ringBounds s)).raise 0x40#8 := by
  simp [refuseAnnounce, Event.addCauseIf, Event.addCause, Event.reply, Event.finish, Cause.set, Cause.bit]

theorem ringBounds_takeSource (s : State) (rest : List Frame) : ringBounds (s.takeSource rest) = ringBounds s := rfl

section Refused

variable {s : State} {vp : Word32} {t0 : Ssn} {tag : Byte} {rest : List Frame}

/-- A refusal that raises nothing: the frame is taken and the outcome answered with the ring's bounds. -/
theorem exec_sweepAnnounce_of_refuse {fleet pilot : Nat} {code : Code}
    (hreq : SourceRequest s 21 tag (enc8 fleet ++ encWord vp ++ enc8 pilot ++ encWord t0) rest)
    (hcode : code ≠ .noStackSlot)
    (h : serveSweepAnnounce (announceFrame tag fleet vp pilot t0) (s.takeSource rest) =
      refuseAnnounce (announceFrame tag fleet vp pilot t0) code (s.takeSource rest)) :
    exec .sweepAnnounce s = .next (s.answerSource rest (.reply tag 21 code (ringBounds s))) := by
  rw [exec_sweepAnnounce hreq, h, refuseAnnounce_of_ne hcode, State.takeSource_pushReply hreq.1,
    ringBounds_takeSource]
  rfl

variable {fl : Fin Config.fleets} {p : Fin Config.pilots} {n : Nat} {i : Fin 4} {samples : List (BitVec 16)}
  {energy : Nat}

/-- A refusal by one of the checks 4 to 7. -/
theorem exec_sweepAnnounce_of_announceRefusal {code : Code}
    (hreq : SourceRequest s 21 tag (enc8 fl ++ encWord vp ++ enc8 p ++ encWord t0) rest)
    (hdef : (s.fleets[fl]).defined = true) (hphase : (s.pilots[p]).phase = .ready n i samples energy)
    (hcode : code ≠ .noStackSlot) (h : announceRefusal s fl i t0 = some code) :
    exec .sweepAnnounce s = .next (s.answerSource rest (.reply tag 21 code (ringBounds s))) := by
  refine exec_sweepAnnounce_of_refuse hreq hcode ?_
  have htaken : announceRefusal (s.takeSource rest) fl i t0 = some code := h
  rw [serveSweepAnnounce_of_ready (s := s.takeSource rest) hdef hphase, htaken]
  rfl

/-- The server's answer where check 8 refuses. -/
theorem serveSweepAnnounce_of_stackMatch {code : Code} (hdef : (s.fleets[fl]).defined = true)
    (hphase : (s.pilots[p]).phase = .ready n i samples energy) (hnone : announceRefusal s fl i t0 = none)
    (h : stackMatch s fl vp = .refuse code) :
    serveSweepAnnounce (announceFrame tag fl vp p t0) s =
      refuseAnnounce (announceFrame tag fl vp p t0) code s := by
  rw [serveSweepAnnounce_of_ready hdef hphase, hnone, Option.elim_none, announceStack, h]

/-- NO_STACK_SLOT: answered like the others, and SLOTS_EXHAUSTED raised. -/
theorem exec_sweepAnnounce_of_no_slot
    (hreq : SourceRequest s 21 tag (enc8 fl ++ encWord vp ++ enc8 p ++ encWord t0) rest)
    (h : serveSweepAnnounce (announceFrame tag fl vp p t0) (s.takeSource rest) =
      refuseAnnounce (announceFrame tag fl vp p t0) .noStackSlot (s.takeSource rest)) :
    exec .sweepAnnounce s =
      .next ((s.answerSource rest (.reply tag 21 .noStackSlot (ringBounds s))).raise 0x40#8) := by
  rw [exec_sweepAnnounce hreq, h, refuseAnnounce_noStackSlot, State.takeSource_pushReply hreq.1,
    ringBounds_takeSource]
  rfl

end Refused

/-- Settles O48: check by check, each where those before it pass. -/
theorem announcementRefusalOrder : Obligations.AnnouncementRefusalOrder := by
  intro s vp t0 tag rest bounds refused
  refine ⟨fun fleet pilot hfleet hpilot hbad hreq => ?_, fun fl p hreq => ⟨fun hdef => ?_, fun hdef => ?_⟩⟩
  · exact exec_sweepAnnounce_of_refuse hreq (by decide)
      (serveSweepAnnounce_of_bad_value _ _ _ _ hfleet hpilot hbad)
  · exact exec_sweepAnnounce_of_refuse hreq (by decide)
      (serveSweepAnnounce_of_undefined (s := s.takeSource rest) hdef)
  refine ⟨fun hphase => ?_, fun n i samples energy hphase => ⟨fun hinterval => ?_, fun hinterval => ?_⟩⟩
  · exact exec_sweepAnnounce_of_refuse hreq (by decide)
      (serveSweepAnnounce_of_not_ready (s := s.takeSource rest) hdef hphase)
  · exact exec_sweepAnnounce_of_announceRefusal hreq hdef hphase (by decide) (announceRefusal_of_interval hinterval)
  refine ⟨fun ht0 => ?_, fun ht0 => ⟨fun hslip => ?_, fun hslip => ?_⟩⟩
  · exact exec_sweepAnnounce_of_announceRefusal hreq hdef hphase (by decide) (announceRefusal_of_t0 hinterval ht0)
  · exact exec_sweepAnnounce_of_announceRefusal hreq hdef hphase (by decide)
      (announceRefusal_of_slip hinterval ht0 hslip)
  have hcheck := announceRefusal_of_slip_passes hinterval ht0 hslip
  refine ⟨fun hfull => ?_, fun hroom => ?_⟩
  · exact exec_sweepAnnounce_of_announceRefusal hreq hdef hphase (by decide) (hcheck.trans (if_pos hfull))
  have hmatch {code : Code} (h : stackMatch s fl vp = .refuse code) :=
    serveSweepAnnounce_of_stackMatch (s := s.takeSource rest) (tag := tag) hdef hphase
      (hcheck.trans (if_neg (Nat.not_le.2 hroom))) h
  refine ⟨fun k st hopen hslot hvp => ⟨fun hfold => ?_, fun hfold hlisten => ?_⟩, fun hfresh hoccupied => ?_⟩
  · exact exec_sweepAnnounce_of_refuse hreq (by decide)
      (hmatch (stackMatch_of_fold_full (State.openStack_eq_some hopen hslot) hvp hfold))
  · exact exec_sweepAnnounce_of_refuse hreq (by decide)
      (hmatch (stackMatch_of_listen (State.openStack_eq_some hopen hslot) hvp hfold hlisten))
  · exact exec_sweepAnnounce_of_no_slot hreq
      (hmatch ((stackMatch_of_no_vp hfresh).trans (matchFree_of_occupied hoccupied)))

end Sys2Proof.Machine

/-! PROOFS. Sweep numbers (R64): what each event does to the sweep table's numbers and to the sweep number counter. -/

namespace Sys2Proof.Machine

/-! ### Keeping the numbers -/

/-- The counter is kept, and no sweep number is new in the table. -/
def State.KeepsNumbers (s t : State) : Prop :=
  t.sweepCounter = s.sweepCounter ∧ ∀ e ∈ t.sweeps, ∃ x ∈ s.sweeps, x.number = e.number

/-- Neither the counter nor the table changes. -/
def State.SameTable (s t : State) : Prop := t.sweepCounter = s.sweepCounter ∧ t.sweeps = s.sweeps

@[simp] theorem State.sameTable_iff (s t : State) :
    s.SameTable t ↔ t.sweepCounter = s.sweepCounter ∧ t.sweeps = s.sweeps := Iff.rfl

theorem State.KeepsNumbers.of_subset {s t : State} (hcounter : t.sweepCounter = s.sweepCounter)
    (hsweeps : ∀ e ∈ t.sweeps, e ∈ s.sweeps) : s.KeepsNumbers t :=
  ⟨hcounter, fun e he => ⟨e, hsweeps e he, rfl⟩⟩

theorem State.SameTable.keepsNumbers {s t : State} (h : s.SameTable t) : s.KeepsNumbers t :=
  .of_subset h.1 fun _ he => h.2 ▸ he

theorem State.KeepsNumbers.refl (s : State) : s.KeepsNumbers s := State.SameTable.keepsNumbers ⟨rfl, rfl⟩

theorem State.KeepsNumbers.trans {s t u : State} (h : s.KeepsNumbers t) (g : t.KeepsNumbers u) : s.KeepsNumbers u := by
  refine ⟨g.1.trans h.1, fun e he => ?_⟩
  obtain ⟨x, hx, hxe⟩ := g.2 e he
  obtain ⟨y, hy, hyx⟩ := h.2 x hx
  exact ⟨y, hy, hyx.trans hxe⟩

/-- Entries that are changed but for their numbers bring no new number. -/
theorem State.KeepsNumbers.of_map (s : State) {f : SweepEntry → SweepEntry} (hf : ∀ e, (f e).number = e.number) :
    s.KeepsNumbers { s with sweeps := s.sweeps.map f } := by
  refine ⟨rfl, fun e he => ?_⟩
  obtain ⟨x, hx, rfl⟩ := List.mem_map.1 he
  exact ⟨x, hx, (hf x).symm⟩

theorem State.updateSweep_keepsNumbers (s : State) (n : Word32) {f : SweepEntry → SweepEntry}
    (hf : ∀ e, e.number = n → (f e).number = n) : s.KeepsNumbers (s.updateSweep n f) := by
  refine State.KeepsNumbers.of_map s fun e => ?_
  split
  next hn => rw [hf e hn, hn]
  · rfl

/-- Events one after the other. -/
theorem Event.foldl_keepsNumbers {α : Type} {f : Event → α → Event}
    (hf : ∀ (ev : Event) (a : α), ev.st.KeepsNumbers (f ev a).st) (l : List α) (ev : Event) :
    ev.st.KeepsNumbers (l.foldl f ev).st := by
  induction l generalizing ev with
  | nil => exact .refl _
  | cons a l ih => exact (hf ev a).trans (ih (f ev a))

/-- The end of an event is not seen in the table. -/
theorem Event.finish_keepsNumbers {s : State} {ev : Event} (h : s.KeepsNumbers ev.st) : s.KeepsNumbers ev.finish :=
  h.trans (State.SameTable.keepsNumbers (by simp))

theorem Event.reply_keepsNumbers {s : State} {ev : Event} (h : s.KeepsNumbers ev.st) (link : LinkId) (f : Frame)
    (code : Code) (fields : List Byte) : s.KeepsNumbers (ev.reply link f code fields) :=
  h.trans (State.SameTable.keepsNumbers (by simp))

/-! ### Seals and resolutions -/

@[simp] theorem sealSlot_sweeps (k : Fin Config.stackSlots) (cause : SealCause) (st : Stack) (ev : Event) :
    (sealSlot k cause st ev).st.sweeps = ev.st.sweeps := by
  rw [sealSlot_eq]
  unfold State.sealedAs
  dsimp only
  split <;> rfl

@[simp] theorem sealSlot_sweepCounter (k : Fin Config.stackSlots) (cause : SealCause) (st : Stack) (ev : Event) :
    (sealSlot k cause st ev).st.sweepCounter = ev.st.sweepCounter := by
  rw [sealSlot_eq]
  unfold State.sealedAs
  dsimp only
  split <;> rfl

theorem resolve_keepsNumbers (out : SweepOutcome) (counts : Option JobCounts) (e : SweepEntry) (ev : Event) :
    ev.st.KeepsNumbers (resolve out counts e ev).st := by
  refine .of_subset (resolve_aside out counts e ev).sweepCounter ?_
  rw [resolve_sweeps]
  exact fun _ => removeFirst_mem

theorem resolveAll_keepsNumbers (p : SweepEntry → Bool) (out : SweepOutcome) (ev : Event) :
    ev.st.KeepsNumbers (resolveAll p out ev).st :=
  Event.foldl_keepsNumbers (fun ev e => resolve_keepsNumbers out none e ev) _ ev

theorem dropAll_keepsNumbers (p : SweepEntry → Bool) (out : SweepOutcome) (ev : Event) :
    ev.st.KeepsNumbers (dropAll p out ev).st := by
  unfold dropAll
  rw [Event.addCauseIf_st]
  exact resolveAll_keepsNumbers p out ev

theorem SweepEntry.settle_number (e : SweepEntry) (qc : QcOutcome) (fails : FailSet) :
    (e.settle qc fails).number = e.number := rfl

/-- Settling an outcome changes one entry under its number, and may resolve it. -/
theorem settleSweep_keepsNumbers {old new : SweepEntry} (h : new.number = old.number) (ev : Event) :
    ev.st.KeepsNumbers (settleSweep old new ev).st := by
  have hupdate := State.updateSweep_keepsNumbers ev.st old.number (f := fun _ => new) fun _ _ => h
  unfold settleSweep
  dsimp only
  split
  · refine State.KeepsNumbers.trans ?_ (resolve_keepsNumbers _ _ _ _)
    rwa [Event.addCauseIf_st]
  · rwa [Event.addCauseIf_st]

/-! ### Rows (chapter 1) and the ring's reports -/

theorem SweepEntry.arrive_number (s : State) (n : Ssn) (e : SweepEntry) : (e.arrive s n).number = e.number := by
  unfold SweepEntry.arrive
  split <;> rfl

theorem arrivalReport_keepsNumbers (n : Ssn) (wasEmpty : Bool) (ev : Event) :
    ev.st.KeepsNumbers (arrivalReport n wasEmpty ev).st := by
  unfold arrivalReport
  dsimp only
  refine State.KeepsNumbers.trans ?_ (resolveAll_keepsNumbers _ _ _)
  refine State.KeepsNumbers.trans ?_ (State.KeepsNumbers.of_map _ (SweepEntry.arrive_number _ n))
  split
  · exact dropAll_keepsNumbers _ _ _
  · exact .refl _

theorem departOldest_keepsNumbers (ev : Event) : ev.st.KeepsNumbers (departOldest ev).st := by
  unfold departOldest
  split
  · split
    · exact .refl _
    next r rest _ => exact dropAll_keepsNumbers _ _ (ev.change fun s => { s with ring := rest })
  · exact .refl _

theorem appendRow_keepsNumbers (gap : Bool) (ev : Event) (words : List RingWord) :
    ev.st.KeepsNumbers (appendRow gap ev words).st := by
  unfold appendRow
  dsimp only
  rw [handRow_st]
  exact (departOldest_keepsNumbers ev).trans
    (arrivalReport_keepsNumbers _ _ ((departOldest ev).change (storeRow (nextSsn ev.st) words)))

theorem appendBlock_keepsNumbers (rows : List (List SampleWord)) (ev : Event) :
    ev.st.KeepsNumbers (appendBlock rows ev).st :=
  Event.foldl_keepsNumbers (appendRow_keepsNumbers false) _ (ev.change _)

theorem fillGap_keepsNumbers (d : Nat) (ev : Event) : ev.st.KeepsNumbers (fillGap d ev).st :=
  Event.foldl_keepsNumbers (appendRow_keepsNumbers true) _ ((ev.change _).addCause _)

theorem restartStream_keepsNumbers (o : Ssn) (ev : Event) : ev.st.KeepsNumbers (restartStream o ev).st :=
  dropAll_keepsNumbers _ _ (ev.change _)

theorem placeBlock_keepsNumbers (first expected : Ssn) (rows : List (List SampleWord)) (ev : Event) :
    ev.st.KeepsNumbers (placeBlock first expected rows ev).st := by
  unfold placeBlock
  dsimp only
  split
  · exact appendBlock_keepsNumbers rows ev
  split
  · exact (fillGap_keepsNumbers _ ev).trans (appendBlock_keepsNumbers rows _)
  split
  · exact (restartStream_keepsNumbers first (ev.addCause .streamFault)).trans (appendBlock_keepsNumbers rows _)
  · exact appendBlock_keepsNumbers _ (countStale _ ev)

theorem handleRowBlock_keepsNumbers (p : List Byte) (ev : Event) : ev.st.KeepsNumbers (handleRowBlock p ev).st := by
  unfold handleRowBlock
  split
  · exact .refl _
  split
  · exact .refl _
  dsimp only
  split
  · exact appendBlock_keepsNumbers _ (ev.change _)
  · exact placeBlock_keepsNumbers _ _ _ ev

theorem handleStreamStart_keepsNumbers (o : Ssn) (ev : Event) :
    ev.st.KeepsNumbers (handleStreamStart o ev).st := by
  have h := restartStream_keepsNumbers o (ev.addCauseIf (!ev.st.ring.isEmpty) .streamFault)
  rwa [Event.addCauseIf_st] at h

theorem takeSpread_sameTable {s s1 : State} {f : Frame} (h : s.takeSpread = some (f, s1)) : s.SameTable s1 := by
  unfold State.takeSpread at h
  split at h <;> simp at h
  obtain ⟨-, rfl⟩ := h
  simp

/-! ### Lanes (chapter 6) -/

theorem grantNext_keepsNumbers (s : State) : s.KeepsNumbers (grantNext s) := by
  rcases grantNext_cases s with ⟨e, l, -, -, h⟩ | ⟨-, h⟩ <;> rw [h]
  · exact State.updateSweep_keepsNumbers s e.number fun _ hx => hx
  · exact .refl s

theorem correlateCompletion_keepsNumbers (l : Fin Config.lanes) (s : State) :
    s.KeepsNumbers (correlateCompletion l s) := by
  unfold correlateCompletion askPort
  split
  next j _ =>
    have hstage := State.updateSweep_keepsNumbers s j.sweep
      (f := fun x => { x with stage := .merging l }) fun _ hx => hx
    dsimp only
    split <;> exact hstage
  · exact .refl s

theorem passPort_sameTable (k : Fin Config.stackSlots) (s : State) : s.SameTable (passPort k s) := by
  unfold passPort beginMerge
  split
  · simp
  · split <;> simp

theorem resolveMerged_keepsNumbers (j : Job) (sc : Scratch) (ev : Event) :
    ev.st.KeepsNumbers (resolveMerged j sc ev).st := by
  unfold resolveMerged
  split
  · exact .refl _
  · exact resolve_keepsNumbers _ _ _ _

theorem applyMerge_sameTable (j : Job) (sc : Scratch) (s : State) : s.SameTable (applyMerge j sc s) := by
  unfold applyMerge
  split <;> simp

theorem mergeCompletion_keepsNumbers (l : Fin Config.lanes) (s : State) : s.KeepsNumbers (mergeCompletion l s) := by
  unfold mergeCompletion
  split
  next j sc _ =>
    refine Event.finish_keepsNumbers ?_
    have hmerge := (applyMerge_sameTable j sc s).keepsNumbers.trans
      (resolveMerged_keepsNumbers j sc (Event.start (applyMerge j sc s)))
    exact hmerge.trans (passPort_sameTable j.slot (State.setLane _ l .idle)).keepsNumbers
  · exact .refl s

/-! ### Timers and the passing of time (00 section 0.5) -/

theorem fillTimeout_sameTable (k : Fin Config.pilots) (s : State) : s.SameTable (fillTimeout k s) := by
  unfold fillTimeout
  split <;> simp

theorem reportTimerExpiry_keepsNumbers (n : Word32) (s : State) : s.KeepsNumbers (reportTimerExpiry n s) := by
  unfold reportTimerExpiry
  split
  · exact .refl s
  next e _ =>
    split
    · exact .refl s
    · exact Event.finish_keepsNumbers (settleSweep_keepsNumbers (e.settle_number _ _) (Event.start s))

theorem lingerExpiry_sameTable (k : Fin Config.stackSlots) (s : State) : s.SameTable (lingerExpiry k s) := by
  unfold lingerExpiry
  split
  · simp
  · split <;> simp

theorem passTo_keepsNumbers (time : Nat) (s : State) : s.KeepsNumbers (passTo time s) :=
  passTo_induction (P := s.KeepsNumbers) (fun t h => h.trans (grantNext_keepsNumbers t)) (fun _ _ h _ => h)
    (fun t k h => h.trans (fillTimeout_sameTable k t).keepsNumbers)
    (fun t n h => h.trans (reportTimerExpiry_keepsNumbers n t))
    (fun t k h => h.trans (lingerExpiry_sameTable k t).keepsNumbers) time (.refl s)

theorem idle_keepsNumbers (s : State) : s.KeepsNumbers (idle s) := by
  unfold idle
  split
  · exact grantNext_keepsNumbers s
  · exact passTo_keepsNumbers _ s

/-! ### Requests -/

theorem takeRequest_sameTable {s s1 : State} {link : LinkId} {f : Frame} (h : s.takeRequest link = some (f, s1)) :
    s.SameTable s1 := by
  unfold State.takeRequest at h
  split at h
  · simp at h
  all_goals
    split at h <;> simp at h
    obtain ⟨-, rfl⟩ := h
    simp

theorem request_keepsNumbers {serve : Frame → State → State}
    (hserve : ∀ (f : Frame) (s : State), s.KeepsNumbers (serve f s)) (link : LinkId) (kind : Nat)
    (fits : List Byte → Bool) (s : State) :
    s.KeepsNumbers (request link kind fits serve s) := by
  rcases request_cases link kind fits serve s with h | ⟨f, s1, htake, -, h | ⟨-, h⟩⟩ <;> rw [h]
  · exact .refl s
  · exact (takeRequest_sameTable htake).keepsNumbers.trans (State.SameTable.keepsNumbers (by simp))
  · exact (takeRequest_sameTable htake).keepsNumbers.trans (hserve f s1)

section Servers

variable (f : Frame) (s : State)

theorem servePilotOpen_sameTable : s.SameTable (servePilotOpen f s) := by
  unfold servePilotOpen refuseNoPilot
  dsimp only
  repeat' split
  all_goals simp

theorem servePilotPart_sameTable : s.SameTable (servePilotPart f s) := by
  unfold servePilotPart refuseNoPilot
  dsimp only
  repeat' split
  all_goals simp

theorem servePilotClose_sameTable : s.SameTable (servePilotClose f s) := by
  unfold servePilotClose
  split <;> simp

theorem servePilotQuery_sameTable : s.SameTable (servePilotQuery f s) := by
  unfold servePilotQuery
  split <;> simp

theorem servePilotPurge_sameTable : s.SameTable (servePilotPurge f s) := by simp [servePilotPurge]

theorem serveVpEnd_sameTable : s.SameTable (serveVpEnd f s) := by
  unfold serveVpEnd lingerSlot
  dsimp only
  repeat' split
  all_goals simp

theorem serveSetupStream_sameTable : s.SameTable (serveSetupStream f s) := by
  unfold serveSetupStream setupStream clearSlip
  dsimp only
  repeat' split
  all_goals simp

theorem serveChannelSet_sameTable : s.SameTable (serveChannelSet f s) := by
  unfold serveChannelSet
  dsimp only
  repeat' split
  all_goals simp

theorem serveChannelRead_sameTable : s.SameTable (serveChannelRead f s) := by
  unfold serveChannelRead
  dsimp only
  split <;> simp

theorem serveFleetSet_sameTable : s.SameTable (serveFleetSet f s) := by
  unfold serveFleetSet
  repeat' split
  all_goals simp

theorem serveFleetRead_sameTable : s.SameTable (serveFleetRead f s) := by
  unfold serveFleetRead
  split <;> simp

theorem serveStackList_sameTable : s.SameTable (serveStackList f s) := by simp [serveStackList]

theorem serveStackStatus_sameTable : s.SameTable (serveStackStatus f s) := by
  unfold serveStackStatus
  dsimp only
  repeat' split
  all_goals simp

theorem serveStackSeal_sameTable : s.SameTable (serveStackSeal f s) := by
  unfold serveStackSeal
  dsimp only
  repeat' split
  all_goals simp

theorem serveStackRelease_sameTable : s.SameTable (serveStackRelease f s) := by
  unfold serveStackRelease releaseSlot
  repeat' split
  all_goals simp

@[simp] theorem moveToHarvesting_sweeps (k : Fin Config.stackSlots) (st : Stack) :
    (moveToHarvesting k st s).sweeps = s.sweeps := by
  unfold moveToHarvesting
  split <;> rfl

@[simp] theorem moveToHarvesting_sweepCounter (k : Fin Config.stackSlots) (st : Stack) :
    (moveToHarvesting k st s).sweepCounter = s.sweepCounter := by
  unfold moveToHarvesting
  split <;> rfl

theorem serveRecordRead_sameTable : s.SameTable (serveRecordRead f s) := by
  unfold serveRecordRead acceptRead
  dsimp only
  repeat' split
  all_goals simp

theorem serveAlertMask_sameTable : s.SameTable (serveAlertMask f s) := by
  unfold serveAlertMask
  dsimp only
  split <;> simp

theorem serveAlertAck_sameTable : s.SameTable (serveAlertAck f s) := by simp [serveAlertAck]

theorem serveDeviceStatus_sameTable : s.SameTable (serveDeviceStatus f s) := by simp [serveDeviceStatus]

theorem serveCapabilityRead_sameTable : s.SameTable (serveCapabilityRead f s) := by simp [serveCapabilityRead]

theorem serveSweepReport_keepsNumbers : s.KeepsNumbers (serveSweepReport f s) := by
  have hpush (code : Code) (fields : List Byte) : s.KeepsNumbers (s.pushReply .source f code fields) :=
    State.SameTable.keepsNumbers (by simp)
  unfold serveSweepReport
  dsimp only
  split
  · exact hpush _ _
  split
  · exact hpush _ _
  split
  · exact hpush _ _
  next e _ =>
    split
    · exact hpush _ _
    · exact hpush _ _
    · exact hpush _ _
    · exact Event.reply_keepsNumbers (settleSweep_keepsNumbers (e.settle_number _ _) (Event.start s)) _ _ _ _

theorem serveSweepCancel_keepsNumbers : s.KeepsNumbers (serveSweepCancel f s) := by
  unfold serveSweepCancel
  split
  · exact State.SameTable.keepsNumbers (by simp)
  split
  · exact State.SameTable.keepsNumbers (by simp)
  · exact Event.reply_keepsNumbers (resolve_keepsNumbers _ _ _ (Event.start s)) _ _ _ _

/-- The clear empties the table and keeps the counter. -/
theorem clearEvent_keepsNumbers : s.KeepsNumbers (clearEvent s).st := by
  have hcounter := (resolveAll_spec (fun _ => true) .droppedClear (Event.start s)).1.sweepCounter
  exact State.KeepsNumbers.of_subset hcounter (by simp [clearEvent, clearBlocks])

theorem serveDeviceClear_keepsNumbers : s.KeepsNumbers (serveDeviceClear f s) :=
  Event.reply_keepsNumbers (clearEvent_keepsNumbers s) .record f .done []

end Servers

/-! ### Frames, links, commits and the messages of a read -/

theorem receiveFrame_sameTable (link : LinkId) (bytes : List Byte) (s : State) :
    s.SameTable (receiveFrame link bytes s) := by
  unfold receiveFrame crcDiscard bufferFrame overflow
  cases link
  all_goals
    dsimp only
    repeat' split
    all_goals simp

theorem commitCompletion_sameTable (k : Fin Config.pilots) (s : State) : s.SameTable (commitCompletion k s) := by
  unfold commitCompletion
  split
  · split <;> simp
  · simp

theorem handMessage_sameTable (r : ReadInHand) (m : Message) (s : State) : s.SameTable (handMessage r m s) := by
  unfold handMessage
  dsimp only
  split <;> simp

theorem handHeader_sameTable (s : State) : s.SameTable (handHeader s) := by
  rcases handHeader_cases s with h | ⟨r, st, -, -, -, -, h⟩ <;> rw [h]
  · simp
  · exact handMessage_sameTable _ _ s

theorem handTrace_sameTable (s : State) : s.SameTable (handTrace s) := by
  rcases handTrace_cases s with h | ⟨r, st, -, -, -, -, -, h⟩ <;> rw [h]
  · simp
  · exact handMessage_sameTable _ _ s

/-! ### Every command but POWER_ON and SWEEP ANNOUNCE -/

/-- The next state of an outcome, where it is one, keeps the numbers. -/
def State.NextKeepsNumbers (s : State) (o : Host.Outcome State Fault Refusal) : Prop :=
  ∀ t, o = .next t → s.KeepsNumbers t

theorem State.KeepsNumbers.next {s t : State} (h : s.KeepsNumbers t) : s.NextKeepsNumbers (.next t) := by
  rintro _ ⟨⟩
  exact h

theorem State.SameTable.next {s t : State} (h : s.SameTable t) : s.NextKeepsNumbers (.next t) := h.keepsNumbers.next

/-- A request whose server does not touch the table. -/
theorem request_nextKeepsNumbers {serve : Frame → State → State}
    (hserve : ∀ (f : Frame) (s : State), s.SameTable (serve f s)) (link : LinkId) (kind : Nat)
    (fits : List Byte → Bool) (s : State) : s.NextKeepsNumbers (.next (request link kind fits serve s)) :=
  (request_keepsNumbers (fun f s => (hserve f s).keepsNumbers) link kind fits s).next

theorem execFrameReceipt_keepsNumbers (link : LinkId) (bytes : List Byte) (s : State) :
    s.NextKeepsNumbers (execFrameReceipt link bytes s) := by
  refine State.SameTable.next ?_
  split
  · exact receiveFrame_sameTable link bytes s
  · simp

theorem execLinkUp_keepsNumbers (link : LinkId) (s : State) : s.NextKeepsNumbers (execLinkUp link s) := by
  cases link <;> exact State.SameTable.next ⟨rfl, rfl⟩

theorem execLinkDown_keepsNumbers (link : LinkId) (s : State) : s.NextKeepsNumbers (execLinkDown link s) := by
  cases link <;> exact State.SameTable.next ⟨rfl, rfl⟩

theorem execMessageSend_keepsNumbers (link : LinkId) (s : State) :
    s.NextKeepsNumbers (execMessageSend link s) := by
  cases link <;> exact State.SameTable.next ⟨rfl, rfl⟩

theorem execUnknownKind_keepsNumbers (link : LinkId) (s : State) :
    s.NextKeepsNumbers (execUnknownKind link s) := by
  unfold execUnknownKind
  split
  · exact (State.KeepsNumbers.refl s).next
  next f s1 htake =>
    refine State.KeepsNumbers.next ?_
    split
    · exact .refl s
    · exact (takeRequest_sameTable htake).keepsNumbers.trans (State.SameTable.keepsNumbers (by simp))

theorem execRowBlock_keepsNumbers (s : State) : s.NextKeepsNumbers (execRowBlock s) := by
  unfold execRowBlock
  split
  · exact (State.KeepsNumbers.refl s).next
  next f s1 htake =>
    refine State.KeepsNumbers.next ?_
    split
    · exact (takeSpread_sameTable htake).keepsNumbers.trans
        (Event.finish_keepsNumbers (handleRowBlock_keepsNumbers f.payload (Event.start s1)))
    · exact .refl s

theorem execStreamStart_keepsNumbers (s : State) : s.NextKeepsNumbers (execStreamStart s) := by
  unfold execStreamStart
  split
  · exact (State.KeepsNumbers.refl s).next
  next f s1 htake =>
    refine State.KeepsNumbers.next ?_
    split
    · exact (takeSpread_sameTable htake).keepsNumbers.trans
        (Event.finish_keepsNumbers (handleStreamStart_keepsNumbers _ (Event.start s1)))
    · exact .refl s

theorem execFillTimeout_keepsNumbers (slot : Nat) (s : State) : s.NextKeepsNumbers (execFillTimeout slot s) := by
  unfold execFillTimeout
  split
  · exact (State.KeepsNumbers.refl s).next
  split
  · exact (State.KeepsNumbers.refl s).next
  · exact ((passTo_keepsNumbers _ s).trans (fillTimeout_sameTable _ _).keepsNumbers).next

theorem execReportTimerExpiry_keepsNumbers (n : Word32) (s : State) :
    s.NextKeepsNumbers (execReportTimerExpiry n s) := by
  unfold execReportTimerExpiry
  split
  · exact (State.KeepsNumbers.refl s).next
  · exact ((passTo_keepsNumbers _ s).trans (reportTimerExpiry_keepsNumbers n _)).next

theorem execLingerExpiry_keepsNumbers (slot : Nat) (s : State) : s.NextKeepsNumbers (execLingerExpiry slot s) := by
  unfold execLingerExpiry
  split
  · exact (State.KeepsNumbers.refl s).next
  split
  · exact (State.KeepsNumbers.refl s).next
  · exact ((passTo_keepsNumbers _ s).trans (lingerExpiry_sameTable _ _).keepsNumbers).next

theorem execCommitCompletion_keepsNumbers (slot : Nat) (s : State) :
    s.NextKeepsNumbers (execCommitCompletion slot s) := by
  unfold execCommitCompletion
  split
  · exact (State.KeepsNumbers.refl s).next
  · exact (commitCompletion_sameTable _ s).next

theorem execCorrelateCompletion_keepsNumbers (lane : Nat) (s : State) :
    s.NextKeepsNumbers (execCorrelateCompletion lane s) := by
  unfold execCorrelateCompletion
  split
  · exact (State.KeepsNumbers.refl s).next
  · exact (correlateCompletion_keepsNumbers _ s).next

theorem execMergeCompletion_keepsNumbers (lane : Nat) (s : State) :
    s.NextKeepsNumbers (execMergeCompletion lane s) := by
  unfold execMergeCompletion
  split
  · exact (State.KeepsNumbers.refl s).next
  · exact (mergeCompletion_keepsNumbers _ s).next

/-- No command but an announcement brings a sweep number, and none but a power-on resets the counter. -/
theorem exec_keepsNumbers {c : Instr} (hpower : c ≠ .powerOn) (hannounce : c ≠ .sweepAnnounce) (s : State) :
    s.NextKeepsNumbers (exec c s) := by
  cases c with
  | powerOn => exact absurd rfl hpower
  | sweepAnnounce => exact absurd rfl hannounce
  | frameReceipt link bytes => exact execFrameReceipt_keepsNumbers link bytes s
  | linkUp link => exact execLinkUp_keepsNumbers link s
  | linkDown link => exact execLinkDown_keepsNumbers link s
  | messageSend link => exact execMessageSend_keepsNumbers link s
  | rowBlock => exact execRowBlock_keepsNumbers s
  | streamStart => exact execStreamStart_keepsNumbers s
  | unknownKind link => exact execUnknownKind_keepsNumbers link s
  | pilotOpen => exact request_nextKeepsNumbers servePilotOpen_sameTable _ _ _ s
  | pilotPart => exact request_nextKeepsNumbers servePilotPart_sameTable _ _ _ s
  | pilotClose => exact request_nextKeepsNumbers servePilotClose_sameTable _ _ _ s
  | pilotQuery => exact request_nextKeepsNumbers servePilotQuery_sameTable _ _ _ s
  | pilotPurge => exact request_nextKeepsNumbers servePilotPurge_sameTable _ _ _ s
  | fillTimeout slot => exact execFillTimeout_keepsNumbers slot s
  | commitCompletion slot => exact execCommitCompletion_keepsNumbers slot s
  | sweepReport => exact (request_keepsNumbers serveSweepReport_keepsNumbers _ _ _ s).next
  | reportTimerExpiry n => exact execReportTimerExpiry_keepsNumbers n s
  | sweepCancel => exact (request_keepsNumbers serveSweepCancel_keepsNumbers _ _ _ s).next
  | vpEnd => exact request_nextKeepsNumbers serveVpEnd_sameTable _ _ _ s
  | lingerExpiry slot => exact execLingerExpiry_keepsNumbers slot s
  | grant => exact (grantNext_keepsNumbers s).next
  | correlateCompletion lane => exact execCorrelateCompletion_keepsNumbers lane s
  | mergeCompletion lane => exact execMergeCompletion_keepsNumbers lane s
  | setupStream => exact request_nextKeepsNumbers serveSetupStream_sameTable _ _ _ s
  | channelSet => exact request_nextKeepsNumbers serveChannelSet_sameTable _ _ _ s
  | channelRead => exact request_nextKeepsNumbers serveChannelRead_sameTable _ _ _ s
  | fleetSet => exact request_nextKeepsNumbers serveFleetSet_sameTable _ _ _ s
  | fleetRead => exact request_nextKeepsNumbers serveFleetRead_sameTable _ _ _ s
  | stackList => exact request_nextKeepsNumbers serveStackList_sameTable _ _ _ s
  | stackStatus => exact request_nextKeepsNumbers serveStackStatus_sameTable _ _ _ s
  | stackSeal => exact request_nextKeepsNumbers serveStackSeal_sameTable _ _ _ s
  | recordRead => exact request_nextKeepsNumbers serveRecordRead_sameTable _ _ _ s
  | recordHeader => exact (handHeader_sameTable s).next
  | trace => exact (handTrace_sameTable s).next
  | stackRelease => exact request_nextKeepsNumbers serveStackRelease_sameTable _ _ _ s
  | alertMask => exact request_nextKeepsNumbers serveAlertMask_sameTable _ _ _ s
  | alertAck => exact request_nextKeepsNumbers serveAlertAck_sameTable _ _ _ s
  | deviceStatus => exact request_nextKeepsNumbers serveDeviceStatus_sameTable _ _ _ s
  | capabilityRead => exact request_nextKeepsNumbers serveCapabilityRead_sameTable _ _ _ s
  | deviceClear => exact (request_keepsNumbers serveDeviceClear_keepsNumbers _ _ _ s).next

/-! ### SWEEP ANNOUNCE (R65, R69) -/

/-- One entry joins the newest end of the table with the counter's value as its number, and the counter goes on. -/
def State.AddsSweep (s t : State) : Prop :=
  t.sweepCounter = s.sweepCounter + 1 ∧ ∃ e, e.number = s.sweepCounter ∧ t.sweeps = s.sweeps ++ [e]

theorem State.SameTable.addsSweep {s t u : State} (h : s.SameTable t) (g : t.AddsSweep u) : s.AddsSweep u := by
  obtain ⟨hcounter, hsweeps⟩ := h
  unfold State.AddsSweep
  rw [← hcounter, ← hsweeps]
  exact g

@[simp] theorem addSweep_sweeps (entry : SweepEntry) (s : State) :
    (addSweep entry s).sweeps = s.sweeps ++ [entry] := rfl

@[simp] theorem addSweep_sweepCounter (entry : SweepEntry) (s : State) :
    (addSweep entry s).sweepCounter = s.sweepCounter + 1 := rfl

theorem acceptJoin_addsSweep (f : Frame) (k : Fin Config.stackSlots) (st : Stack) {entry : SweepEntry} {s : State}
    (h : entry.number = s.sweepCounter) : s.AddsSweep (acceptJoin f k st entry s) :=
  ⟨by simp [acceptJoin], entry, h, by simp [acceptJoin]⟩

theorem sealMoved_sameTable (fl : Fin Config.fleets) (vp : Word32) (ev : Event) :
    ev.st.SameTable (sealMoved fl vp ev).st := by
  unfold sealMoved
  split
  · simp
  · split <;> simp

theorem acceptOpen_addsSweep (f : Frame) (k : Fin Config.stackSlots) {entry : SweepEntry} {s : State}
    (h : entry.number = s.sweepCounter) : s.AddsSweep (acceptOpen f k entry s) := by
  obtain ⟨hcounter, hsweeps⟩ := sealMoved_sameTable entry.fleet entry.vp (Event.start s)
  exact ⟨by simp [acceptOpen, hcounter], entry, h, by simp [acceptOpen, hsweeps]⟩

theorem announceRefusal_ne_done (s : State) (fl : Fin Config.fleets) (i : Fin 4) (t0 : Ssn) :
    announceRefusal s fl i t0 ≠ some .done := by
  unfold announceRefusal
  repeat' split
  all_goals simp

theorem stackMatch_ne_done (s : State) (fl : Fin Config.fleets) (vp : Word32) :
    stackMatch s fl vp ≠ .refuse .done := by
  unfold stackMatch matchFree
  repeat' split
  all_goals simp

/-- Check 8 refuses, or the announcement is accepted. -/
theorem announceStack_cases (f : Frame) (fl : Fin Config.fleets) (p : Fin Config.pilots) (length energy : Nat)
    (vp : Word32) (t0 : Ssn) (s : State) :
    (∃ code, code ≠ .done ∧ announceStack f fl p length energy vp t0 s = refuseAnnounce f code s) ∨
      s.AddsSweep (announceStack f fl p length energy vp t0 s) := by
  unfold announceStack
  cases hmatch : stackMatch s fl vp with
  | refuse code => exact .inl ⟨code, fun h => stackMatch_ne_done s fl vp (h ▸ hmatch), rfl⟩
  | join k st => exact .inr (acceptJoin_addsSweep f k st rfl)
  | fresh k => exact .inr (acceptOpen_addsSweep f k rfl)

/-- A SWEEP ANNOUNCE is refused with another outcome than DONE, or adds its sweep. -/
theorem serveSweepAnnounce_cases (f : Frame) (s : State) :
    (∃ code, code ≠ .done ∧ serveSweepAnnounce f s = refuseAnnounce f code s) ∨
      s.AddsSweep (serveSweepAnnounce f s) := by
  unfold serveSweepAnnounce
  dsimp only
  split
  next fl p _ _ =>
    split
    · split
      next length interval _ energy _ =>
        split
        next code hcode => exact .inl ⟨code, fun h => announceRefusal_ne_done s fl interval _ (h ▸ hcode), rfl⟩
        · exact announceStack_cases f fl p length energy _ _ s
      · exact .inl ⟨_, by decide, rfl⟩
    · exact .inl ⟨_, by decide, rfl⟩
  · exact .inl ⟨_, by decide, rfl⟩

/-- No REPLY with DONE joins the Source Link's queue, whatever its tag and fields. -/
def State.NotAnsweredDone (s t : State) : Prop :=
  ∀ (tag : Byte) (fields : List Byte), t.source.output ≠ s.source.output ++ [.reply tag 21 .done fields]

theorem notAnsweredDone_of_push {s t : State} {f : Frame} {code : Code} {fields : List Byte} (hcode : code ≠ .done)
    (h : t.source = s.source.push (.reply f.tag f.kind code fields)) : s.NotAnsweredDone t := by
  intro tag result hout
  rw [h, PartnerLink.push_output] at hout
  split at hout
  · simp [hcode] at hout
  · simp at hout

theorem refuseAnnounce_sameTable (f : Frame) (code : Code) (s : State) : s.SameTable (refuseAnnounce f code s) := by
  simp [refuseAnnounce]

theorem refuseAnnounce_source (f : Frame) (code : Code) (s : State) :
    (refuseAnnounce f code s).source = s.source.push (.reply f.tag f.kind code (ringBounds s)) := by
  simp [refuseAnnounce, Event.reply, Event.finish, State.pushReply]

theorem takeRequest_source_output {s s1 : State} {f : Frame} (h : s.takeRequest .source = some (f, s1)) :
    s1.source.output = s.source.output := by
  unfold State.takeRequest at h
  dsimp only at h
  split at h <;> simp at h
  obtain ⟨-, rfl⟩ := h
  rfl

/-- Whatever stands in the Source Link's buffer: a SWEEP ANNOUNCE that does not add its sweep is not answered DONE. -/
theorem exec_sweepAnnounce_cases {s t : State} (h : exec .sweepAnnounce s = .next t) :
    (s.KeepsNumbers t ∧ s.NotAnsweredDone t) ∨ s.AddsSweep t := by
  obtain rfl : request .source 21 (fixedLength 10) serveSweepAnnounce s = t := Host.Outcome.next.inj h
  rcases request_cases .source 21 (fixedLength 10) serveSweepAnnounce s with hs | ⟨f, s1, htake, -, hs⟩
  · rw [hs]
    exact .inl ⟨.refl s, fun tag fields => by simp⟩
  have htable := takeRequest_sameTable htake
  have hqueue {u : State} (hu : s1.NotAnsweredDone u) : s.NotAnsweredDone u := by
    unfold State.NotAnsweredDone
    rw [← takeRequest_source_output htake]
    exact hu
  rcases hs with hs | ⟨-, hs⟩ <;> rw [hs]
  · exact .inl ⟨htable.keepsNumbers.trans (State.SameTable.keepsNumbers (by simp)),
      hqueue (notAnsweredDone_of_push (by decide) (State.pushReply_source s1 .source f _ _))⟩
  rcases serveSweepAnnounce_cases f s1 with ⟨code, hcode, hserve⟩ | hadds
  · rw [hserve]
    exact .inl ⟨htable.keepsNumbers.trans (refuseAnnounce_sameTable f code s1).keepsNumbers,
      hqueue (notAnsweredDone_of_push hcode (refuseAnnounce_source f code s1))⟩
  · exact .inr (htable.addsSweep hadds)

/-- Settles O16: an idle step and every command but an announcement keep the numbers; an announcement keeps them and is
not answered DONE, or adds its sweep. -/
theorem sweepNumbersAreHandedOutOnce : Obligations.SweepNumbersAreHandedOutOnce := by
  refine ⟨rfl, fun c s t hhappens hpower => ?event, fun s t tag fields hexec hdone => ?done⟩
  case event =>
    cases c with
    | none =>
      obtain ⟨hempty, hstep⟩ := hhappens
      rw [step_empty hempty] at hstep
      exact .inl ((idle_keepsNumbers s).next t hstep)
    | some c =>
      have hexec : exec c s = .next t := hhappens
      by_cases hannounce : c = .sweepAnnounce
      · subst hannounce
        exact (exec_sweepAnnounce_cases hexec).imp And.left fun hadds => ⟨rfl, hadds⟩
      · exact .inl (exec_keepsNumbers (fun hc => hpower (congrArg some hc)) hannounce s t hexec)
  case done =>
    rcases exec_sweepAnnounce_cases hexec with ⟨-, hnot⟩ | hadds
    · exact absurd hdone (hnot tag fields)
    · exact hadds

end Sys2Proof.Machine

/-! PROOFS. SWEEP REPORT (chapter 5): which entries of a report are tested and what they give, and the answers of the
request in the order of its checks. -/

namespace Sys2Proof.Machine

/-! ### The distinct entries (R88) -/

/-- An entry that stands in the report with no entry of its vibrator id before it. -/
def VibratorEntry.IsFirstIn (v : VibratorEntry) (vs : List VibratorEntry) : Prop :=
  ∃ i : Nat, vs[i]? = some v ∧ ∀ (j : Nat) (w : VibratorEntry), j < i → vs[j]? = some w → w.id ≠ v.id

theorem VibratorEntry.not_isFirstIn_nil (v : VibratorEntry) : ¬ v.IsFirstIn [] := by
  simp [VibratorEntry.IsFirstIn]

theorem VibratorEntry.isFirstIn_cons_iff (v w : VibratorEntry) (l : List VibratorEntry) :
    v.IsFirstIn (w :: l) ↔ v = w ∨ w.id ≠ v.id ∧ v.IsFirstIn l := by
  constructor
  · rintro ⟨i, hat, hbefore⟩
    cases i with
    | zero => exact .inl (by simpa using hat.symm)
    | succ i => exact .inr ⟨hbefore 0 w (by omega) rfl, i, hat, fun j x hj hx => hbefore (j + 1) x (by omega) hx⟩
  · rintro (rfl | ⟨hid, i, hat, hbefore⟩)
    · exact ⟨0, rfl, fun j x hj => absurd hj (by omega)⟩
    · refine ⟨i + 1, hat, fun j x hj hx => ?_⟩
      cases j with
      | zero => rw [← Option.some.inj hx]; exact hid
      | succ j => exact hbefore j x (by omega) hx

/-- The distinct entries are the first ones of the ids that have not been seen. -/
theorem mem_distinctEntries_iff (seen : List Nat) (vs : List VibratorEntry) (v : VibratorEntry) :
    v ∈ distinctEntries seen vs ↔ v.id ∉ seen ∧ v.IsFirstIn vs := by
  induction vs generalizing seen with
  | nil => simp [distinctEntries, v.not_isFirstIn_nil]
  | cons w l ih =>
    rw [distinctEntries, v.isFirstIn_cons_iff]
    by_cases hw : w.id ∈ seen
    · rw [if_pos (by simpa using hw), ih]
      constructor
      · rintro ⟨hv, hfirst⟩
        exact ⟨hv, .inr ⟨fun hid => hv (hid ▸ hw), hfirst⟩⟩
      · rintro ⟨hv, rfl | ⟨-, hfirst⟩⟩
        · exact absurd hw hv
        · exact ⟨hv, hfirst⟩
    · rw [if_neg (by simpa using hw), List.mem_cons, ih, List.mem_cons]
      constructor
      · rintro (rfl | ⟨hv, hfirst⟩)
        · exact ⟨hw, .inl rfl⟩
        · exact ⟨fun h => hv (.inr h), .inr ⟨fun hid => hv (.inl hid.symm), hfirst⟩⟩
      · rintro ⟨hv, rfl | ⟨hid, hfirst⟩⟩
        · exact .inl rfl
        · exact .inr ⟨fun h => h.elim (fun h => hid h.symm) hv, hfirst⟩

theorem mem_distinctEntries_ids_iff (seen : List Nat) (vs : List VibratorEntry) (n : Nat) :
    n ∈ (distinctEntries seen vs).map VibratorEntry.id ↔ n ∉ seen ∧ n ∈ vs.map VibratorEntry.id := by
  induction vs generalizing seen with
  | nil => simp [distinctEntries]
  | cons w l ih =>
    rw [distinctEntries]
    by_cases hw : w.id ∈ seen
    · rw [if_pos (by simpa using hw), ih]
      grind
    · rw [if_neg (by simpa using hw), List.map_cons, List.mem_cons, ih]
      grind

theorem distinctEntries_ids_nodup (seen : List Nat) (vs : List VibratorEntry) :
    ((distinctEntries seen vs).map VibratorEntry.id).Nodup := by
  induction vs generalizing seen with
  | nil => exact .nil
  | cons w l ih =>
    rw [distinctEntries]
    split
    · exact ih seen
    · rw [List.map_cons, List.nodup_cons]
      exact ⟨fun h => ((mem_distinctEntries_ids_iff _ _ _).1 h).1 (List.mem_cons_self ..), ih _⟩

/-- There are as many distinct entries as vibrator ids. -/
theorem distinctEntries_length (vs : List VibratorEntry) :
    (distinctEntries [] vs).length = (vs.map VibratorEntry.id).dedup.length := by
  have hperm : ((distinctEntries [] vs).map VibratorEntry.id).Perm (vs.map VibratorEntry.id).dedup :=
    (List.perm_ext_iff_of_nodup (distinctEntries_ids_nodup [] vs) (List.nodup_dedup _)).2 fun n => by
      simp [mem_distinctEntries_ids_iff]
  rw [← hperm.length_eq, List.length_map]

/-! ### The fail set (R88, R89) -/

/-- A limit is passed where a first entry passes it with its clamped values. -/
theorem any_distinct_clamped_iff (p : VibratorEntry → Bool) (vs : List VibratorEntry) :
    ((distinctEntries [] vs).map VibratorEntry.clamped).any p = true ↔
      ∃ v : VibratorEntry, v.IsFirstIn vs ∧ p v.clamped = true := by
  simp [mem_distinctEntries_iff]

/-- A clamp from 0 on only lowers. -/
theorem clamp_zero_eq_min (hi v : Nat) : clamp 0 hi v = min v hi := by
  rw [clamp_eq 0 hi v (Nat.zero_le _), Nat.zero_max, Nat.min_comm]

theorem FailSet.isEmpty_iff (f : FailSet) : f.isEmpty = true ↔
    f.missing = false ∧ f.phasePeak = false ∧ f.phaseMean = false ∧ f.distortion = false ∧ f.force = false := by
  cases f
  simp [FailSet.isEmpty, FailSet.empty]

/-- Settles O49: the count over the ids without repeats, each cause over the first entry of each id. -/
theorem reportsAreEvaluated : Obligations.ReportsAreEvaluated := by
  intro q vs f tested
  have hcause (p : VibratorEntry → Bool) {limit : VibratorEntry → Prop} (hp : ∀ v, p v.clamped = true ↔ limit v) :
      ((distinctEntries [] vs).map VibratorEntry.clamped).any p = true ↔ ∃ v, tested v ∧ limit v :=
    (any_distinct_clamped_iff p vs).trans (exists_congr fun v => and_congr_right fun _ => hp v)
  refine ⟨distinctEntries_length vs, ?_, hcause _ fun v => ?_, hcause _ fun v => ?_, hcause _ fun v => ?_,
    hcause _ fun v => ?_, FailSet.isEmpty_iff f⟩
  · rw [← distinctEntries_length vs]
    simp [f, evaluateReport]
  all_goals simp [VibratorEntry.clamped, clamp_zero_eq_min]

/-! ### The frame and its fields (section 5.2) -/

/-- The ten bytes of a vibrator entry. -/
def VibratorEntry.bytes (v : VibratorEntry) : List Byte :=
  enc16 v.id ++ enc16 v.peakPhase ++ enc16 v.meanPhase ++ enc16 v.distortion ++ enc16 v.force

/-- Every field of the entry fits in its two bytes. -/
def VibratorEntry.Fits (v : VibratorEntry) : Prop :=
  v.id < 65536 ∧ v.peakPhase < 65536 ∧ v.meanPhase < 65536 ∧ v.distortion < 65536 ∧ v.force < 65536

theorem readVibratorEntry_bytes {v : VibratorEntry} (h : v.Fits) : readVibratorEntry v.bytes = v := by
  obtain ⟨hid, hpeak, hmean, hdistortion, hforce⟩ := h
  exact (VibratorEntry.mk.injEq ..).mpr ⟨ofNat16_toNat hid, ofNat16_toNat hpeak, ofNat16_toNat hmean,
    ofNat16_toNat hdistortion, ofNat16_toNat hforce⟩

/-- A SWEEP REPORT with its sweep number and vibrator entries. -/
def sweepReportFrame (tag : Byte) (number : Word32) (vs : List VibratorEntry) : Frame :=
  { kind := 22, tag := tag, payload := encWord number ++ enc8 vs.length ++ vs.flatMap VibratorEntry.bytes }

section Fields

variable (tag : Byte) (number : Word32) {vs : List VibratorEntry}

theorem wordAt_sweepReportFrame : wordAt (sweepReportFrame tag number vs).payload 0 = number := encWord_toNat number

theorem byteAt_sweepReportFrame (hcount : vs.length < 256) :
    byteAt (sweepReportFrame tag number vs).payload 4 = vs.length := ofNat8_toNat hcount

theorem readVibratorEntries_sweepReportFrame (hcount : vs.length < 256) (hfits : ∀ v ∈ vs, v.Fits) :
    readVibratorEntries (sweepReportFrame tag number vs).payload = vs := by
  have hdrop : (sweepReportFrame tag number vs).payload.drop 5 = vs.flatMap VibratorEntry.bytes ++ [] :=
    (List.append_nil _).symm
  rw [readVibratorEntries, byteAt_sweepReportFrame tag number hcount, hdrop,
    chunks_flatMap 10 vs VibratorEntry.bytes [] fun _ _ => rfl, List.map_map]
  exact (List.map_congr_left fun v hv => readVibratorEntry_bytes (hfits v hv)).trans (List.map_id vs)

theorem fitsSweepReport_sweepReportFrame (hcount : vs.length < 256) :
    fitsSweepReport (sweepReportFrame tag number vs).payload = true := by
  have hlength : (sweepReportFrame tag number vs).payload.length = 5 + 10 * vs.length := by
    simp [sweepReportFrame, VibratorEntry.bytes, List.length_flatMap]
    omega
  rw [fitsSweepReport, byteAt_sweepReportFrame tag number hcount, hlength, decide_eq_true_iff]
  omega

end Fields

theorem exec_sweepReport {s : State} {tag : Byte} {number : Word32} {vs : List VibratorEntry} {rest : List Frame}
    (h : SourceRequest s 22 tag (sweepReportFrame tag number vs).payload rest) (hcount : vs.length < 256) :
    exec .sweepReport s = .next (serveSweepReport (sweepReportFrame tag number vs) (s.takeSource rest)) :=
  congrArg Host.Outcome.next ((request_source h 22 fitsSweepReport serveSweepReport).trans
    (if_pos (fitsSweepReport_sweepReportFrame tag number hcount)))

/-! ### The checks (R85) -/

section Checks

variable {s : State} (tag : Byte) {number : Word32} {vs : List VibratorEntry}

theorem serveSweepReport_of_bad_count (hcount : vs.length < 256) (h : vs = [] ∨ 8 < vs.length) :
    serveSweepReport (sweepReportFrame tag number vs) s =
      s.pushReply .source (sweepReportFrame tag number vs) .badLength (encWord number) := by
  have hbad : vs.length < 1 ∨ 8 < vs.length := h.imp_left fun hnil => by simp [hnil]
  unfold serveSweepReport
  rw [byteAt_sweepReportFrame tag number hcount, wordAt_sweepReportFrame]
  exact if_pos hbad

variable (hfits : ∀ v ∈ vs, v.Fits) (hlo : 1 ≤ vs.length) (hhi : vs.length ≤ 8)
include hfits hlo hhi

theorem serveSweepReport_of_bad_id (h : ∃ v ∈ vs, 15 < v.id) :
    serveSweepReport (sweepReportFrame tag number vs) s =
      s.pushReply .source (sweepReportFrame tag number vs) .badValue (encWord number) := by
  have hcount : vs.length < 256 := by omega
  unfold serveSweepReport
  rw [byteAt_sweepReportFrame tag number hcount, wordAt_sweepReportFrame,
    readVibratorEntries_sweepReportFrame tag number hcount hfits]
  exact (if_neg (by omega)).trans (if_pos (by simpa using h))

variable (hids : ∀ v ∈ vs, v.id ≤ 15)
include hids

theorem serveSweepReport_of_unknown (h : s.findSweep number = none) :
    serveSweepReport (sweepReportFrame tag number vs) s =
      s.pushReply .source (sweepReportFrame tag number vs) .sweepUnknown (encWord number) := by
  have hcount : vs.length < 256 := by omega
  unfold serveSweepReport
  rw [byteAt_sweepReportFrame tag number hcount, wordAt_sweepReportFrame,
    readVibratorEntries_sweepReportFrame tag number hcount hfits]
  refine (if_neg (by omega)).trans ((if_neg (by simpa using hids)).trans ?_)
  rw [h]

/-- The sweep is found: its QC outcome decides. -/
theorem serveSweepReport_of_found {e : SweepEntry} (h : s.findSweep number = some e) :
    (e.qc = .pass ∨ e.qc = .fail → serveSweepReport (sweepReportFrame tag number vs) s =
        s.pushReply .source (sweepReportFrame tag number vs) .reportDuplicate
          (encWord number ++ reportFields e false)) ∧
      (e.qc = .noReport → serveSweepReport (sweepReportFrame tag number vs) s =
        s.pushReply .source (sweepReportFrame tag number vs) .reportLate (encWord number ++ reportFields e false)) ∧
      (e.qc = .pending → serveSweepReport (sweepReportFrame tag number vs) s =
        acceptReport (sweepReportFrame tag number vs) e vs s) := by
  have hcount : vs.length < 256 := by omega
  unfold serveSweepReport
  rw [byteAt_sweepReportFrame tag number hcount, wordAt_sweepReportFrame,
    readVibratorEntries_sweepReportFrame tag number hcount hfits]
  dsimp only
  rw [if_neg (by omega), if_neg (by simpa using hids), h]
  dsimp only
  refine ⟨?_, fun hlate => by rw [hlate], fun hpending => by rw [hpending]⟩
  rintro (hpass | hfail)
  · rw [hpass]
  · rw [hfail]

end Checks

/-! ### The settled entry (R72, R90, R95) -/

/-- An outcome that lets the sweep proceed makes a data-complete WAITING sweep READY. -/
theorem SweepEntry.settle_of_proceeds {e : SweepEntry} {qc : QcOutcome}
    (h : qcProceeds qc e.copy.policy e.copy.noReport = true) (fails : FailSet) :
    e.settle qc fails = { e with
      qc := qc, failSet := fails, timer := none
      stage := if e.dataComplete = true ∧ e.stage = .waiting then .ready else e.stage } := by
  simp [SweepEntry.settle, SweepEntry.proceeds, h]

/-- Any other outcome leaves the stage. -/
theorem SweepEntry.settle_of_stopped {e : SweepEntry} {qc : QcOutcome}
    (h : qcProceeds qc e.copy.policy e.copy.noReport = false) (fails : FailSet) :
    e.settle qc fails = { e with qc := qc, failSet := fails, timer := none } := by
  simp [SweepEntry.settle, SweepEntry.proceeds, h]

theorem SweepEntry.settle_isRejected (e : SweepEntry) (qc : QcOutcome) (fails : FailSet) :
    (e.settle qc fails).isRejected = (decide (qc ≠ .pending) && !qcProceeds qc e.copy.policy e.copy.noReport) := rfl

theorem DistinctNumbers.updateSweep {s : State} (h : DistinctNumbers s) {n : Word32} {new : SweepEntry}
    (hnumber : new.number = n) : DistinctNumbers (s.updateSweep n fun _ => new) := by
  have hkept : (s.updateSweep n fun _ => new).sweeps.map SweepEntry.number = s.sweeps.map SweepEntry.number := by
    refine (List.map_map ..).trans (List.map_congr_left fun x _ => ?_)
    dsimp only [Function.comp_apply]
    split
    next hx => rw [hnumber, hx]
    · rfl
  rwa [DistinctNumbers, hkept]

/-- Changing the entry with a number does not change the entries with other numbers. -/
theorem State.updateSweep_filter (s : State) {n : Word32} {new : SweepEntry} (hnumber : new.number = n) :
    ((s.updateSweep n fun _ => new).sweeps.filter fun x => decide (x.number ≠ n)) =
      s.sweeps.filter fun x => decide (x.number ≠ n) := by
  show (s.sweeps.map _).filter _ = _
  induction s.sweeps with
  | nil => rfl
  | cons x l ih =>
    by_cases hx : x.number = n
    · simpa [hx, hnumber] using ih
    · simpa [hx] using ih

/-- A resolution does not see the QC outcome, fail set and timer of the entry it takes out. -/
theorem State.resolvedAs_settled (s : State) (e : SweepEntry) (qc : QcOutcome) (fails : FailSet)
    (timer : Option Timer) (out : SweepOutcome) :
    (s.updateSweep e.number fun _ => { e with qc := qc, failSet := fails, timer := timer }).resolvedAs
      { e with qc := qc, failSet := fails, timer := timer } out = s.resolvedAs e out := by
  have hfilter := s.updateSweep_filter (n := e.number)
    (new := { e with qc := qc, failSet := fails, timer := timer }) rfl
  unfold State.resolvedAs
  dsimp only
  rw [hfilter]
  rfl

/-- The event in which the state has changed and a cause may have been raised. -/
theorem Event.start_change_addCauseIf (s : State) (f : State → State) (b : Bool) (c : Cause) :
    ((Event.start s).change f).addCauseIf b c = { st := f s, raised := if b = true then c.set else 0, results := [] } := by
  cases b <;> simp [Event.addCauseIf, Event.addCause, Event.change, Event.start]

theorem settleSweep_of_proceeds (old : SweepEntry) {new : SweepEntry} (h : new.isRejected = false) (s : State) :
    settleSweep old new (Event.start s) =
      { st := s.updateSweep old.number fun _ => new
        raised := if qcFails new.qc new.copy.noReport = true then Cause.qcFailed.set else 0, results := [] } := by
  unfold settleSweep
  rw [h, Event.start_change_addCauseIf]
  exact if_neg Bool.false_ne_true

/-- The event in which a sweep is settled FAIL under REJECT, and so resolved. -/
theorem settleSweep_of_rejected {s : State} (hdistinct : DistinctNumbers s) {e : SweepEntry}
    (hpolicy : e.copy.policy = .reject) (fails : FailSet) :
    settleSweep e (e.settle .fail fails) (Event.start s) =
      { st := s.resolvedAs e .rejectedQc, raised := Cause.qcFailed.set ||| resolutionRaises s e
        results := [{ e with qc := .fail, failSet := fails, timer := none }.result .rejectedQc none] } := by
  have hstopped : qcProceeds .fail e.copy.policy e.copy.noReport = false := by rw [hpolicy]; rfl
  have hresolve := resolve_eq (out := .rejectedQc) (by decide) none
    { e with qc := .fail, failSet := fails, timer := none }
    { st := s.updateSweep e.number fun _ => { e with qc := .fail, failSet := fails, timer := none }
      raised := Cause.qcFailed.set, results := [] } (hdistinct.updateSweep rfl)
  rw [State.resolvedAs_settled] at hresolve
  unfold settleSweep
  rw [SweepEntry.settle_isRejected, hstopped, SweepEntry.settle_of_stopped hstopped, Event.start_change_addCauseIf]
  exact hresolve

/-! ### The accepted report (R87, R90, R91) -/

/-- FAIL alone raises QC_FAILED at a report (R96). -/
theorem reportRaises_eq (empty : Bool) (action : NoReport) :
    (if qcFails (if empty = true then .pass else .fail) action = true then Cause.qcFailed.set else 0) =
      if empty = true then (0 : CauseSet) else 0x80#8 := by
  cases empty <;> rfl

/-- A sweep that fails and is resolved is reported FAIL, RESOLVED (R91, R168). -/
theorem reportFields_of_resolved (e : SweepEntry) (fails : FailSet) :
    reportFields { e with qc := .fail, failSet := fails, timer := none } true =
      [2] ++ fails.byte ++ [4] ++ encBool e.dataComplete := rfl

section Accepted

variable {s : State} (f : Frame) {e : SweepEntry} {vs : List VibratorEntry}

/-- PASS, or FAIL under KEEP: the entry stays in the table. -/
theorem acceptReport_of_kept (h : (evaluateReport e.copy vs).isEmpty = true ∨ e.copy.policy = .keep) :
    let fails := evaluateReport e.copy vs
    let moved : SweepEntry :=
      { e with
        qc := if fails.isEmpty then .pass else .fail, failSet := fails, timer := none
        stage := if e.dataComplete = true ∧ e.stage = .waiting then .ready else e.stage }
    acceptReport f e vs s =
      ((s.updateSweep e.number fun _ => moved).pushReply .source f .done (encWord e.number ++
        reportFields moved false ++ enc8 (vs.map VibratorEntry.id).dedup.length)).raise
          (if fails.isEmpty then 0 else 0x80#8) := by
  intro fails moved
  have hproceeds : qcProceeds (if fails.isEmpty then .pass else .fail) e.copy.policy e.copy.noReport = true := by
    split
    · rfl
    next hfails => rw [h.resolve_left hfails]; rfl
  have hkept : (e.settle (if fails.isEmpty then .pass else .fail) fails).isRejected = false := by
    rw [SweepEntry.settle_isRejected, hproceeds, Bool.not_true, Bool.and_false]
  unfold acceptReport
  dsimp only
  rw [hkept, settleSweep_of_proceeds e hkept, SweepEntry.settle_of_proceeds hproceeds, reportRaises_eq,
    distinctEntries_length]
  rfl

/-- FAIL under REJECT: the entry is resolved, with the REPLY in front of its SWEEP RESULT. -/
theorem acceptReport_of_rejected (hdistinct : DistinctNumbers s)
    (hfails : (evaluateReport e.copy vs).isEmpty = false) (hpolicy : e.copy.policy = .reject) :
    let settled : SweepEntry := { e with qc := .fail, failSet := evaluateReport e.copy vs, timer := none }
    acceptReport f e vs s =
      (((s.resolvedAs e .rejectedQc).pushReply .source f .done (encWord e.number ++
        reportFields settled true ++ enc8 (vs.map VibratorEntry.id).dedup.length)).sendResult
          (settled.result .rejectedQc none)).raise (0x80#8 ||| resolutionRaises s e) := by
  have hstopped : qcProceeds .fail e.copy.policy e.copy.noReport = false := by rw [hpolicy]; rfl
  unfold acceptReport
  dsimp only
  rw [hfails, if_neg Bool.false_ne_true, settleSweep_of_rejected hdistinct hpolicy, SweepEntry.settle_isRejected,
    hstopped, SweepEntry.settle_of_stopped hstopped, distinctEntries_length]
  rfl

end Accepted

theorem State.updateSweep_takeSource (s : State) (rest : List Frame) (n : Word32) (f : SweepEntry → SweepEntry) :
    (s.takeSource rest).updateSweep n f = (s.updateSweep n f).takeSource rest := rfl

/-- Settles O50: the checks in their order, then the accepted report by outcome and policy. -/
theorem reportsSettleSweeps : Obligations.ReportsSettleSweeps := by
  intro s number vs tag rest hreq hcount hfits hdistinct refused stands
  have hexec := exec_sweepReport hreq hcount
  have hup : s.source.up = true := hreq.1
  have hrefused (code : Code) (fields : List Byte)
      (h : serveSweepReport (sweepReportFrame tag number vs) (s.takeSource rest) =
        (s.takeSource rest).pushReply .source (sweepReportFrame tag number vs) code (encWord number ++ fields)) :
      refused code fields := by
    rw [State.takeSource_pushReply hup] at h
    exact hexec.trans (congrArg _ h)
  refine ⟨fun hbad => hrefused _ [] (serveSweepReport_of_bad_count tag hcount hbad),
    fun hlo hhi => ⟨fun hid => hrefused _ [] (serveSweepReport_of_bad_id tag hfits hlo hhi hid), fun hids =>
      ⟨fun hnone => hrefused _ [] (serveSweepReport_of_unknown tag hfits hlo hhi hids
        (State.findSweep_eq_none (s := s.takeSource rest) hnone)), fun e he hnumber => ?_⟩⟩⟩
  subst hnumber
  obtain ⟨hduplicate, hlate, hpending⟩ := serveSweepReport_of_found tag hfits hlo hhi hids
    (State.findSweep_eq_some (s := s.takeSource rest) hdistinct he)
  refine ⟨fun h => hrefused _ (stands e) (hduplicate h), fun h => hrefused _ (stands e) (hlate h),
    fun h => ⟨fun hkept => hexec.trans (congrArg _ ?_), fun hfails hpolicy => hexec.trans (congrArg _ ?_)⟩⟩
  · rw [hpending h, acceptReport_of_kept _ hkept, State.updateSweep_takeSource,
      State.takeSource_pushReply (s := s.updateSweep e.number _) hup]
    rfl
  · have hupAfter : (s.resolvedAs e .rejectedQc).source.up = true := by
      rw [State.resolvedAs_source hdistinct e (by decide), hup]
    rw [hpending h, acceptReport_of_rejected (s := s.takeSource rest) _ hdistinct hfails hpolicy,
      State.resolvedAs_takeSource, State.takeSource_pushReply hupAfter, reportFields_of_resolved, hfails]
    simp only [List.append_assoc]
    rfl

end Sys2Proof.Machine

/-! PROOFS. Window power and trace weights (chapter 6): W as a floored mean square, and the weight of a channel's trace
by its cause and the job's weight mode. -/

namespace Sys2Proof.Machine

/-! ### Window power (R106) -/

/-- The model's quotient by 16,384 is the arithmetic shift of R106. -/
theorem ediv_16384_eq_shiftRight (x : Int) : x / 16384 = x >>> (14 : Int) := by
  have hcast : x >>> (14 : Int) = x >>> (14 : Nat) := Int.shiftRight_natCast_right x 14
  simp [hcast, Int.shiftRight_eq_div_pow]

theorem windowPower_eq_mean_square (words : List RingWord) (n : Nat) :
    ((windowPower words n : Nat) : Int) = (words.map fun w : RingWord => ((w.x >>> 14) ^ 2 : Int)).sum / (n : Int) := by
  simp [windowPower, Nat.cast_list_sum, Function.comp_def, ediv_16384_eq_shiftRight]

/-- The square of one word's term is within 2^30: the shifted value lies in -2^15..2^15. -/
theorem shifted_square_le {x : Int} (h : x.natAbs ≤ 536870912) : (x / 16384).natAbs ^ 2 ≤ 1073741824 := by
  have hshifted : (x / 16384).natAbs ≤ 32768 := by omega
  exact Nat.pow_le_pow_left hshifted 2

theorem windowPower_le {words : List RingWord} {n : Nat} (hx : ∀ w ∈ words, w.x.natAbs ≤ 536870912)
    (hlength : words.length ≤ n) : windowPower words n ≤ 1073741824 := by
  have hsum : (words.map fun w => (w.x / 16384).natAbs ^ 2).sum ≤ words.length * 1073741824 := by
    simpa using List.sum_le_card_nsmul (words.map fun w => (w.x / 16384).natAbs ^ 2) 1073741824
      (List.forall_mem_map.2 fun w hw => shifted_square_le (hx w hw))
  exact Nat.div_le_of_le_mul (hsum.trans (Nat.mul_le_mul_right _ hlength))

/-! ### The weight of a trace (R109) -/

theorem correlateChannel_weight_of_cause {j : Job} {v : ChannelView} {words : List RingWord}
    (h : traceCause j v words ≠ none) (pilot : List Int) : (correlateChannel j pilot v words).1.weight = 0 := by
  obtain ⟨c, hcause⟩ := Option.ne_none_iff_exists'.1 h
  simp [correlateChannel, hcause]

theorem correlateChannel_weight_of_no_cause {j : Job} {v : ChannelView} {words : List RingWord}
    (h : traceCause j v words = none) (pilot : List Int) : (correlateChannel j pilot v words).1.weight =
      traceWeight j.weight (windowPower words (j.pilotLength + j.listen - 1)) := by
  simp [correlateChannel, h]

/-- 2^30 divided by a power within 2^30 leaves at least 1. -/
theorem one_le_traceWeight_diversity {power : Nat} (h : power ≤ 1073741824) : 1 ≤ traceWeight .diversity power := by
  have hquotient : 1 ≤ 1073741824 / max power 16384 := (Nat.one_le_div_iff (by omega)).2 (by omega)
  exact le_min (by decide) hquotient

theorem traceWeight_diversity_le (power : Nat) : traceWeight .diversity power ≤ 65535 := min_le_left _ _

/-- More power in the window never gives more weight. -/
theorem traceWeight_diversity_antitone : Antitone (traceWeight .diversity) := fun _ _ h =>
  min_le_min_left _ (Nat.div_le_div_left (max_le_max_right _ h) (by omega))

/-- Settles O22: W, the weight by cause and mode, and the range and fall of the DIVERSITY weight. -/
theorem windowPowerSetsTheWeight : Obligations.WindowPowerSetsTheWeight := by
  refine ⟨fun words n => ⟨windowPower_eq_mean_square words n, windowPower_le⟩, ?_,
    fun p q hpq hq => ⟨one_le_traceWeight_diversity hq, traceWeight_diversity_antitone hpq,
      traceWeight_diversity_le p⟩⟩
  intro j pilot v words w power
  have hweight (hnone : traceCause j v words = none) (mode : WeightMode) (hmode : j.weight = mode) :
      w = traceWeight mode power :=
    hmode ▸ correlateChannel_weight_of_no_cause hnone pilot
  exact ⟨fun hcause => correlateChannel_weight_of_cause hcause pilot, fun hnone => hweight hnone .plain,
    fun hnone => hweight hnone .diversity⟩

end Sys2Proof.Machine

/-! PROOFS. Output samples (chapter 8): what the saturation of a value changes, the normalised values of a channel, and
the samples, count and flags of its TRACE. -/

namespace Sys2Proof.Machine

/-! ### Saturation -/

theorem saturate_range (n : Nat) (v : Int) :
    -(2 ^ (n - 1) : Int) ≤ saturate n v ∧ saturate n v ≤ 2 ^ (n - 1) - 1 := by
  have hpos : (0 : Int) < 2 ^ (n - 1) := by positivity
  rw [saturate_eq]
  omega

/-- Saturation changes exactly the values outside the signed range. -/
theorem saturate_ne_self_iff (n : Nat) (v : Int) :
    saturate n v ≠ v ↔ v < -(2 ^ (n - 1) : Int) ∨ 2 ^ (n - 1) - 1 < v := by
  have hpos : (0 : Int) < 2 ^ (n - 1) := by positivity
  rw [saturate_eq]
  omega

@[simp] theorem saturate_zero (n : Nat) : saturate n 0 = 0 := by
  have hpos : (0 : Int) < 2 ^ (n - 1) := by positivity
  rw [saturate_eq]
  omega

/-! ### Normalised values of a channel (R152 to R154) -/

@[simp] theorem normalisedTrace_length (mode : ReadMode) (shift : Nat) (r : ChannelStack) :
    (normalisedTrace mode shift r).length = r.acc.length := by
  unfold normalisedTrace
  split <;> exact List.length_map _

theorem normalisedTrace_of_empty (mode : ReadMode) (shift : Nat) {r : ChannelStack} (h : r.accepted = 0) :
    normalisedTrace mode shift r = r.acc.map fun _ => 0 := if_pos h

theorem normalisedTrace_of_accepted (mode : ReadMode) (shift : Nat) {r : ChannelStack} (h : 1 ≤ r.accepted) :
    normalisedTrace mode shift r = r.acc.map (normalisedSample mode shift r.weightSum) :=
  if_neg (Nat.one_le_iff_ne_zero.1 h)

/-! ### The TRACE of a channel (R154, R155) -/

section Trace

variable (mode : ReadMode) (shift : Nat) (width : SampleWidth) (channel : Nat) (label : Word32) (r : ChannelStack)

theorem traceMessage_samples : (traceMessage mode shift width channel label r).samples =
    (normalisedTrace mode shift r).map (saturate width.bits) := rfl

/-- The output saturation count is over the normalised values that saturation changes. -/
theorem traceMessage_saturated : (traceMessage mode shift width channel label r).saturated =
    ((normalisedTrace mode shift r).filter fun v => decide (saturate width.bits v ≠ v)).length := rfl

theorem traceMessage_outSat_iff : (traceMessage mode shift width channel label r).outSat = true ↔
    1 ≤ (traceMessage mode shift width channel label r).saturated := decide_eq_true_iff

theorem traceMessage_isEmpty_iff : (traceMessage mode shift width channel label r).isEmpty = true ↔
    r.accepted = 0 := decide_eq_true_iff

theorem traceMessage_samples_length :
    (traceMessage mode shift width channel label r).samples.length = r.acc.length := by
  rw [traceMessage_samples, List.length_map, normalisedTrace_length]

/-- Every sample sent lies in the signed range of the read's width. -/
theorem traceMessage_samples_range : ∀ v ∈ (traceMessage mode shift width channel label r).samples,
    -(2 ^ (width.bits - 1) : Int) ≤ v ∧ v ≤ 2 ^ (width.bits - 1) - 1 := by
  rw [traceMessage_samples]
  exact List.forall_mem_map.2 fun v _ => saturate_range width.bits v

variable {r}

theorem traceMessage_samples_of_empty (h : r.accepted = 0) :
    ∀ v ∈ (traceMessage mode shift width channel label r).samples, v = 0 := by
  rw [traceMessage_samples, normalisedTrace_of_empty mode shift h, List.map_map]
  exact List.forall_mem_map.2 fun _ _ => saturate_zero width.bits

/-- An EMPTY trace has only zeros, and saturation leaves a zero as it is. -/
theorem traceMessage_saturated_of_empty (h : r.accepted = 0) :
    (traceMessage mode shift width channel label r).saturated = 0 := by
  rw [traceMessage_saturated, normalisedTrace_of_empty mode shift h, List.length_eq_zero_iff, List.filter_eq_nil_iff]
  exact List.forall_mem_map.2 fun _ _ => by simp

theorem traceMessage_samples_of_accepted (h : 1 ≤ r.accepted) :
    (traceMessage mode shift width channel label r).samples = r.acc.map fun a =>
      max (-(2 ^ (width.bits - 1) : Int))
        (min (2 ^ (width.bits - 1) - 1) (normalisedSample mode shift r.weightSum a)) := by
  rw [traceMessage_samples, normalisedTrace_of_accepted mode shift h, List.map_map]
  exact List.map_congr_left fun a _ => saturate_eq width.bits _

theorem traceMessage_saturated_of_accepted (h : 1 ≤ r.accepted) :
    (traceMessage mode shift width channel label r).saturated = (r.acc.filter fun a =>
      decide (normalisedSample mode shift r.weightSum a < -(2 ^ (width.bits - 1) : Int) ∨
        2 ^ (width.bits - 1) - 1 < normalisedSample mode shift r.weightSum a)).length := by
  rw [traceMessage_saturated, normalisedTrace_of_accepted mode shift h, List.filter_map, List.length_map]
  congr 2
  funext a
  exact decide_eq_decide.2 (saturate_ne_self_iff width.bits _)

end Trace

/-- Settles O27: length and range of the samples, the two flags by the counts, then the EMPTY trace and the others. -/
theorem traceFlagsFollowCounts : Obligations.TraceFlagsFollowCounts := by
  intro mode shift width channel label r t top
  have houtSat : t.outSat = true ↔ 1 ≤ t.saturated := traceMessage_outSat_iff mode shift width channel label r
  refine ⟨traceMessage_samples_length mode shift width channel label r,
    traceMessage_samples_range mode shift width channel label r, houtSat,
    traceMessage_isEmpty_iff mode shift width channel label r, fun hempty => ?_, fun haccepted =>
      ⟨traceMessage_samples_of_accepted mode shift width channel label haccepted,
        traceMessage_saturated_of_accepted mode shift width channel label haccepted⟩⟩
  have hcount : t.saturated = 0 := traceMessage_saturated_of_empty mode shift width channel label hempty
  have hnot : t.outSat = false := Bool.eq_false_iff.2 fun hset => by have := houtSat.1 hset; omega
  exact ⟨traceMessage_samples_of_empty mode shift width channel label hempty, hcount, hnot⟩

end Sys2Proof.Machine

/-! PROOFS. What can happen inside an event: the changes a command or a timer makes, one after the other, and the changes
that only one command makes. Every invariant below is kept by each of them, and every step is a chain of them. -/

namespace Sys2Proof.Machine

/-! ### Changes of the links, and moves of a pilot slot -/

/-- The links, the read in hand, held ALERTs, pending causes and free values may change; the rest of the part stays, and
the bounds of the links are kept. -/
structure State.LinksMove (s t : State) : Prop where
  frame : t = { s with
    reading := t.reading, alerts := t.alerts, spread := t.spread, source := t.source, record := t.record
    heldAlerts := t.heldAlerts, freeCount := t.freeCount }
  mask : t.alerts.mask = s.alerts.mask
  sequence : t.source.sequence = s.source.sequence
  reading : ∀ r, t.reading = some r → ∃ r0, s.reading = some r0 ∧ r0.slot = r.slot
  links : LinkInv s → LinkInv t

/-- S is in the range of R40 where the slot has one. -/
def PilotPhase.InRange (p : PilotPhase) : Prop := ∀ n, p.length? = some n → 1024 ≤ n ∧ n ≤ 16384

/-- A pilot slot's move: its pins stay, a pinned READY slot stays READY, S stays in range, and a fill timer is the old one
or has time left. -/
structure PilotSlot.Moves (clock : Nat) (p q : PilotSlot) : Prop where
  pins : q.pins = p.pins
  ready : p.phase.isReady = true → 1 ≤ p.pins → q.phase.isReady = true
  length : p.phase.InRange → q.phase.InRange
  timer : ∀ t, q.phase.fillTimer = some t → p.phase.fillTimer = some t ∨ clock ≤ t.deadline

theorem PilotSlot.Moves.refl (clock : Nat) (p : PilotSlot) : p.Moves clock p :=
  ⟨rfl, fun h _ => h, id, fun _ h => .inl h⟩

/-! ### One change of an event -/

/-- One thing that happens in an event, and may happen at many events: a cause is raised, the event ends and another
begins, the links move, pilot slots move, latched flags are cleared, an outcome is settled, a sweep is dropped or
cancelled, a slot is sealed or lingers, a sweep is granted. -/
inductive Change : Event → Event → Prop
  | cause (ev : Event) (c : Cause) : Change ev (ev.addCause c)
  | flush (ev : Event) : Change ev (Event.start ev.finish)
  | links {ev : Event} {t : State} : ev.st.LinksMove t → Change ev (ev.change fun _ => t)
  | pilots {ev : Event} {v : Vector PilotSlot Config.pilots} :
      (∀ p : Fin Config.pilots, (ev.st.pilots[p]).Moves ev.st.clock v[p]) →
      Change ev (ev.change fun s => { s with pilots := v })
  | latches (ev : Event) (first n : Nat) : Change ev (ev.change fun s =>
      { s with monitor := { s.monitor with table := clearLatches first n s.monitor.table } })
  | settle {ev : Event} {e : SweepEntry} {qc : QcOutcome} {fails : FailSet} : e ∈ ev.st.sweeps →
      e.qc = .pending ∨ e.timer ≠ none → qc ≠ .pending → (fails.isEmpty = false ↔ qc = .fail) →
      Change ev (settleSweep e (e.settle qc fails) ev)
  | resolve {ev : Event} {e : SweepEntry} {out : SweepOutcome} : e.isDroppable = true → out ≠ .droppedClear →
      e ∈ ev.st.sweeps → Change ev (resolve out none e ev)
  | sealed {ev : Event} {k : Fin Config.stackSlots} {st : Stack} (cause : SealCause) : ev.st.slots[k] = some st →
      st.isJoinable = true ∨ (∃ fl : Fin Config.fleets, (ev.st.fleets[fl]).openSlot = some k) →
      Change ev (sealSlot k cause st ev)
  | linger {ev : Event} {k : Fin Config.stackSlots} {st : Stack} {fl : Fin Config.fleets} (ms : Nat) :
      (ev.st.fleets[fl]).openSlot = some k → ev.st.slots[k] = some st → Change ev (ev.change (lingerSlot k st ms))
  | grant {ev : Event} {e : SweepEntry} {l : Fin Config.lanes} : chooseSweep ev.st.sweeps = some e →
      chooseLane ev.st = some l → Change ev (ev.change (grantTo e l))

/-- Settings of a channel: what CHANNEL SET alone writes (R24). -/
def Channel.SameSettings (c d : Channel) : Prop :=
  d.active = c.active ∧ d.label = c.label ∧ d.deadThreshold = c.deadThreshold ∧ d.noiseThreshold = c.noiseThreshold

/-- Ring, origin, ingest counters and the monitor's running state may change; the configuration and the rest stay. -/
structure State.StreamMove (s t : State) : Prop where
  frame : t = { s with ring := t.ring, ingest := t.ingest, monitor := t.monitor }
  channels : t.ingest.channels = s.ingest.channels
  interval : t.ingest.interval = s.ingest.interval
  settings : ∀ i : Fin Config.channels, (s.monitor.table[i]).SameSettings t.monitor.table[i]

/-- A change at a ROW BLOCK or STREAM START: beside those of every event, the stream moves, an arrival reaches the sweeps,
and the last accepted T0s become absent. -/
inductive StreamChange : Event → Event → Prop
  | change {a b : Event} : Change a b → StreamChange a b
  | stream {ev : Event} {t : State} : ev.st.StreamMove t → StreamChange ev (ev.change fun _ => t)
  | arrive (ev : Event) (n : Ssn) :
      StreamChange ev (ev.change fun s => { s with sweeps := s.sweeps.map (SweepEntry.arrive s n) })
  | slip (ev : Event) : StreamChange ev (ev.change clearSlip)

/-- A change while time passes: beside those of every event, the clock moves on. -/
inductive ClockChange : Event → Event → Prop
  | change {a b : Event} : Change a b → ClockChange a b
  | clock {ev : Event} {m : Nat} : ev.st.clock < m → ClockChange ev (ev.change fun s => { s with clock := m })

/-- What only one command does to the part, once (R2, R26, R60, R69, R101, R111, R114, R140, R149, R181, R186). -/
inductive Single : Instr → State → Event → Prop
  | reset (s : State) :
      Single .powerOn s (Event.start { State.reset with pending := s.pending, freeCount := s.freeCount })
  | join {s : State} {fl : Fin Config.fleets} {vp : Word32} {p : Fin Config.pilots} {t0 : Ssn} {n : Nat} {i : Fin 4}
      {samples : List (BitVec 16)} {energy : Nat} {k : Fin Config.stackSlots} {st : Stack} :
      (s.pilots[p]).phase = .ready n i samples energy → t0InBounds s t0 = true → s.sweeps.length < 32 →
      s.openStack fl = some (k, st) → st.fold + st.pending < 32 → (s.fleets[fl]).params.listen = st.listen →
      Single .sweepAnnounce s
        ((Event.start s).change fun u => addSweep (newEntry s fl vp k p t0 n energy) (u.joinSlot k st))
  | fresh {s : State} {fl : Fin Config.fleets} {vp : Word32} {p : Fin Config.pilots} {t0 : Ssn} {n : Nat} {i : Fin 4}
      {samples : List (BitVec 16)} {energy : Nat} {k : Fin Config.stackSlots} :
      (s.pilots[p]).phase = .ready n i samples energy → t0InBounds s t0 = true → s.sweeps.length < 32 →
      s.slots[k] = none → (∀ k0 st0, s.openStack fl = some (k0, st0) → st0.vp ≠ vp) →
      Single .sweepAnnounce s (((sealMoved fl vp (Event.start s)).change fun u => u.openSlot k fl vp).change
        (addSweep (newEntry s fl vp k p t0 n energy)))
  | correlate {s : State} {l : Fin Config.lanes} {j : Job} : s.lanes[l] = .correlating j →
      Single (.correlateCompletion l) s (Event.start (askPort l j (correlate j s)
        (s.updateSweep j.sweep fun x => { x with stage := .merging l })))
  | merge {s : State} {l : Fin Config.lanes} {j : Job} {sc : Scratch} : s.lanes[l] = .merging j sc →
      Single (.mergeCompletion l) s ((resolveMerged j sc (Event.start (applyMerge j sc s))).change fun u =>
        passPort j.slot (u.setLane l .idle))
  | setup {s : State} {channels : Nat} (i : Fin 4) : channels ≤ 1024 → isQuiet s = true →
      Single .setupStream s (Event.start (setupStream channels i s))
  | channelSet (s : State) (first : Nat) (records : List ChannelRecord) :
      Single .channelSet s (Event.start { s with
        monitor := { s.monitor with table := writeChannels s.monitor.position first records s.monitor.table } })
  | fleetSet (s : State) (fl : Fin Config.fleets) (d : Bool) {q : FleetParams} : 256 ≤ q.listen → q.listen ≤ 8192 →
      Single .fleetSet s (Event.start (s.setFleet fl { s.fleets[fl] with defined := d, params := q }))
  | mask {s : State} (m : CauseSet) :
      Single .alertMask s (Event.start { s with alerts := { s.alerts with mask := m } })
  | release {s : State} {k : Fin Config.stackSlots} {st : Stack} : s.reading = none → s.slots[k] = some st →
      st.isSealed = true → Single .stackRelease s (Event.start (releaseSlot k s))
  | read {s : State} {k : Fin Config.stackSlots} {st : Stack} {r : ReadInHand} : s.slots[k] = some st →
      st.isSealed = true → r.slot = k →
      Single .recordRead s (Event.start { moveToHarvesting k st s with reading := some r })
  | clear {s : State} : s.reading = none → Single .deviceClear s (clearEvent s)

/-! ### Chains of changes -/

/-- A chain of changes leads from one state to another. -/
def Leads (R : Event → Event → Prop) (s t : State) : Prop :=
  Relation.ReflTransGen R (Event.start s) (Event.start t)

/-- The links move, a command's own change follows, and then changes of every event. -/
def LeadsOver (c : Instr) (s t : State) : Prop :=
  ∃ (u : State) (ev : Event), s.LinksMove u ∧ Single c u ev ∧ Relation.ReflTransGen Change ev (Event.start t)

section Chains

variable {R : Event → Event → Prop} {s t u : State} {ev : Event}

theorem Leads.refl (s : State) : Leads R s s := Relation.ReflTransGen.refl

theorem Leads.trans (h : Leads R s t) (g : Leads R t u) : Leads R s u := Relation.ReflTransGen.trans h g

theorem Leads.mono {Q : Event → Event → Prop} (hQ : ∀ a b, R a b → Q a b) (h : Leads R s t) : Leads Q s t :=
  Relation.ReflTransGen.mono hQ _ _ h

theorem Leads.finish (hR : ∀ a b, Change a b → R a b) (h : Relation.ReflTransGen R (Event.start s) ev) :
    Leads R s ev.finish :=
  h.tail (hR _ _ (.flush ev))

theorem Leads.ofLinks (h : s.LinksMove t) : Leads Change s t := .single (.links h)

/-- A property of events that every change keeps holds at the end of a chain. -/
theorem Leads.keeps {P : Event → Prop} (hP : ∀ a b, R a b → P a → P b) (h : Leads R s t) (hs : P (Event.start s)) :
    P (Event.start t) := by
  unfold Leads at h
  generalize Event.start t = ev at h ⊢
  induction h with
  | refl => exact hs
  | tail _ hlast ih => exact hP _ _ hlast ih

end Chains

end Sys2Proof.Machine

/-! PROOFS. What the links do (chapter 9) as changes: taking frames, handing on messages, link events, receipt. -/

namespace Sys2Proof.Machine

/-! ### The bounds of the links (R4, R149, R165, R171, R173) -/

/-- The bounds of the links read the links, the read in hand and the held ALERTs alone. -/
theorem LinkInv.of_same {s t : State} (h : LinkInv s) (hspread : t.spread = s.spread) (hsource : t.source = s.source)
    (hrecord : t.record = s.record) (hreading : t.reading = s.reading) (hheld : t.heldAlerts = s.heldAlerts) :
    LinkInv t := by
  unfold LinkInv at *
  rwa [hspread, hsource, hrecord, hreading, hheld]

/-- A message produced on the Source Link keeps the bounds. -/
theorem LinkInv.push_source {s : State} (h : LinkInv s) (m : Message) (q : BitVec 8) :
    LinkInv { s with source := { s.source.push m with sequence := q } } := by
  obtain ⟨hspread, hsource, hrecord, hspreadDown, hsourceDown, hrecordDown, hheld, hread⟩ := h
  unfold PartnerLink.push
  split
  next hup => exact ⟨hspread, hsource, hrecord, hspreadDown, by simp [hup], hrecordDown, hheld, hread⟩
  · exact ⟨hspread, hsource, hrecord, hspreadDown, hsourceDown, hrecordDown, hheld, hread⟩

/-- A message produced on the Record Link keeps the bounds while no read is in hand or the link is down. -/
theorem LinkInv.push_record {s : State} (h : LinkInv s) (m : Message) (q : BitVec 8)
    (hfree : s.record.up = true → s.reading = none) :
    LinkInv { s with record := { s.record.push m with sequence := q } } := by
  obtain ⟨hspread, hsource, hrecord, hspreadDown, hsourceDown, hrecordDown, hheld, hread⟩ := h
  unfold PartnerLink.push
  split
  next hup => exact ⟨hspread, hsource, hrecord, hspreadDown, hsourceDown, by simp [hup], hheld, by simp [hfree hup]⟩
  · exact ⟨hspread, hsource, hrecord, hspreadDown, hsourceDown, hrecordDown, hheld, hread⟩

theorem LinkInv.sendAlert {s : State} (h : LinkInv s) : LinkInv s.sendAlert := by
  unfold State.sendAlert
  dsimp only
  split
  next hup r hr =>
    obtain ⟨hspread, hsource, hrecord, hspreadDown, hsourceDown, hrecordDown, hheld, hread⟩ := h
    exact ⟨hspread, hsource, hrecord, hspreadDown, hsourceDown, hrecordDown, by simp [hr], hread⟩
  next hnot =>
    refine h.push_record _ _ fun hup => ?_
    cases hr : s.reading with
    | none => rfl
    | some r => exact (hnot r hup hr).elim

theorem LinkInv.raise {s : State} (h : LinkInv s) (c : CauseSet) : LinkInv (s.raise c) := by
  unfold State.raise
  dsimp only
  split
  · exact h.of_same rfl rfl rfl rfl rfl
  · exact LinkInv.sendAlert (h.of_same rfl rfl rfl rfl rfl)

theorem LinkInv.sendResults {s : State} (h : LinkInv s) (l : List SweepResult) :
    LinkInv (l.foldl State.sendResult s) := by
  induction l generalizing s with
  | nil => exact h
  | cons r l ih => exact ih (h.push_source _ _)

theorem LinkInv.finish {ev : Event} (h : LinkInv ev.st) : LinkInv ev.finish := (h.sendResults _).raise _

/-- A REPLY keeps the bounds; one on the Record Link is made with no read in hand (R166). -/
theorem LinkInv.pushReply {s : State} (h : LinkInv s) (link : LinkId) (f : Frame) (code : Code) (fields : List Byte)
    (hfree : link = .record → s.reading = none) : LinkInv (s.pushReply link f code fields) := by
  cases link with
  | spread => exact h
  | source =>
    have hq : ∀ m, s.source.push m = { s.source.push m with sequence := s.source.sequence } := fun m => by
      unfold PartnerLink.push; split <;> rfl
    unfold State.pushReply
    dsimp only
    rw [hq]
    exact h.push_source _ _
  | record =>
    have hq : ∀ m, s.record.push m = { s.record.push m with sequence := s.record.sequence } := fun m => by
      unfold PartnerLink.push; split <;> rfl
    unfold State.pushReply
    dsimp only
    rw [hq]
    exact h.push_record _ _ fun _ => hfree rfl

/-! ### Moves of the links -/

namespace State.LinksMove

variable {s t u : State}

theorem refl (s : State) : s.LinksMove s := ⟨rfl, rfl, rfl, fun r h => ⟨r, h, rfl⟩, id⟩

theorem trans (h : s.LinksMove t) (g : t.LinksMove u) : s.LinksMove u := by
  refine ⟨?_, g.mask.trans h.mask, g.sequence.trans h.sequence, fun r hr => ?_, fun hs => g.links (h.links hs)⟩
  · rw [g.frame, h.frame]
  · obtain ⟨r1, hr1, hslot1⟩ := g.reading r hr
    obtain ⟨r0, hr0, hslot0⟩ := h.reading r1 hr1
    exact ⟨r0, hr0, hslot0.trans hslot1⟩

/-- A move that leaves the read in hand. -/
theorem of_reading (frame : t = { s with
      reading := t.reading, alerts := t.alerts, spread := t.spread, source := t.source, record := t.record
      heldAlerts := t.heldAlerts, freeCount := t.freeCount }) (mask : t.alerts.mask = s.alerts.mask)
    (sequence : t.source.sequence = s.source.sequence) (reading : t.reading = s.reading)
    (links : LinkInv s → LinkInv t) : s.LinksMove t :=
  ⟨frame, mask, sequence, fun r h => ⟨r, reading ▸ h, rfl⟩, links⟩

theorem pushReply (s : State) (link : LinkId) (f : Frame) (code : Code) (fields : List Byte)
    (hfree : link = .record → s.reading = none) : s.LinksMove (s.pushReply link f code fields) := by
  refine of_reading ?_ (by simp) ?_ (by simp) fun h => h.pushReply link f code fields hfree
  · cases link <;> rfl
  · cases link with
    | source => simp only [State.pushReply, PartnerLink.push]; split <;> rfl
    | _ => rfl

theorem useFree (s : State) (n : Nat) : s.LinksMove (s.useFree n) :=
  of_reading rfl rfl rfl rfl fun h => h.of_same rfl rfl rfl rfl rfl

/-- The pending causes are the Alert Unit's own. -/
theorem setPending (s : State) (c : CauseSet) : s.LinksMove { s with alerts := { s.alerts with pending := c } } :=
  of_reading rfl rfl rfl rfl fun h => h.of_same rfl rfl rfl rfl rfl

theorem sendAlert (s : State) : s.LinksMove s.sendAlert := by
  refine of_reading ?_ (by simp) (by simp) (by simp) LinkInv.sendAlert
  unfold State.sendAlert
  dsimp only
  split <;> rfl

/-- A frame leaves the Spread Link's buffer (R5). -/
theorem takeSpread {f : Frame} (h : s.takeSpread = some (f, t)) : s.LinksMove t := by
  unfold State.takeSpread at h
  split at h
  · simp at h
  next f rest hin =>
    obtain ⟨-, rfl⟩ := Prod.mk.inj (Option.some.inj h)
    refine of_reading rfl rfl rfl rfl fun hs => ?_
    obtain ⟨hspread, hsource, hrecord, hspreadDown, hsourceDown, hrecordDown, hheld, hread⟩ := hs
    rw [hin] at hspread hspreadDown
    exact ⟨by simp at hspread ⊢; omega, hsource, hrecord,
      fun hdown => absurd (hspreadDown hdown) (by simp), hsourceDown, hrecordDown, hheld, hread⟩

/-- A request leaves its link's buffer (R166). -/
theorem takeRequest {link : LinkId} {f : Frame} (h : s.takeRequest link = some (f, t)) : s.LinksMove t := by
  unfold State.takeRequest at h
  split at h
  · simp at h
  · split at h
    · simp at h
    next f rest hin =>
      obtain ⟨-, rfl⟩ := Prod.mk.inj (Option.some.inj h)
      refine of_reading rfl rfl rfl rfl fun hs => ?_
      obtain ⟨hspread, hsource, hrecord, hspreadDown, hsourceDown, hrecordDown, hheld, hread⟩ := hs
      rw [hin] at hsource hsourceDown
      exact ⟨hspread, by simp at hsource ⊢; omega, hrecord, hspreadDown,
        fun hdown => absurd (hsourceDown hdown).1 (by simp), hrecordDown, hheld, hread⟩
  · split at h
    · simp at h
    · simp at h
    next f rest hr hin =>
      obtain ⟨-, rfl⟩ := Prod.mk.inj (Option.some.inj h)
      refine of_reading rfl rfl rfl rfl fun hs => ?_
      obtain ⟨hspread, hsource, hrecord, hspreadDown, hsourceDown, hrecordDown, hheld, hread⟩ := hs
      rw [hin] at hrecord hrecordDown
      exact ⟨hspread, hsource, by simp at hrecord ⊢; omega, hspreadDown, hsourceDown,
        fun hdown => absurd (hrecordDown hdown).1 (by simp), hheld, hread⟩

end State.LinksMove

theorem Change.linksOf {ev : Event} {f : State → State} (h : ev.st.LinksMove (f ev.st)) : Change ev (ev.change f) :=
  .links h

/-- On the Record Link a request is taken with no read in hand (R166). -/
theorem takeRequest_reading {s t : State} {link : LinkId} {f : Frame} (h : s.takeRequest link = some (f, t)) :
    link = .record → t.reading = none := by
  rintro rfl
  unfold State.takeRequest at h
  dsimp only at h
  split at h
  · simp at h
  · simp at h
  next hr _ => obtain ⟨-, rfl⟩ := Prod.mk.inj (Option.some.inj h); exact hr

/-! ### Frame receipt, link events and sending -/

/-- A place is free in a link's input buffer (R4, R165). -/
def State.HasPlace (s : State) : LinkId → Prop
  | .spread => s.spread.input.length < 16
  | .source => s.source.input.length < 4
  | .record => s.record.input.length < 4

theorem bufferFrame_linksMove {link : LinkId} {s : State} (hup : s.linkIsUp link = true) (f : Frame)
    (hfits : s.HasPlace link) : s.LinksMove (bufferFrame link f s) := by
  cases link with
  | spread =>
    have hup : s.spread.up = true := hup
    have hfits : s.spread.input.length < 16 := hfits
    simp only [bufferFrame, hfits, Config.spreadPlaces, if_true]
    refine .of_reading rfl rfl rfl rfl fun hs => ?_
    obtain ⟨-, hsource, hrecord, -, hsourceDown, hrecordDown, hheld, hread⟩ := hs
    exact ⟨by simpa [Config.spreadPlaces] using hfits, hsource, hrecord, by simp [hup], hsourceDown, hrecordDown, hheld,
      hread⟩
  | source =>
    have hup : s.source.up = true := hup
    have hfits : s.source.input.length < 4 := hfits
    simp only [bufferFrame, hfits, Config.requestPlaces, if_true]
    refine .of_reading rfl rfl rfl rfl fun hs => ?_
    obtain ⟨hspread, -, hrecord, hspreadDown, -, hrecordDown, hheld, hread⟩ := hs
    exact ⟨hspread, by simpa [Config.requestPlaces] using hfits, hrecord, hspreadDown, by simp [hup], hrecordDown,
      hheld, hread⟩
  | record =>
    have hup : s.record.up = true := hup
    have hfits : s.record.input.length < 4 := hfits
    simp only [bufferFrame, hfits, Config.requestPlaces, if_true]
    refine .of_reading rfl rfl rfl rfl fun hs => ?_
    obtain ⟨hspread, hsource, -, hspreadDown, hsourceDown, -, hheld, hread⟩ := hs
    exact ⟨hspread, hsource, by simpa [Config.requestPlaces] using hfits, hspreadDown, hsourceDown, by simp [hup],
      hheld, hread⟩

/-- A discarded frame and one that finds the buffer full are counted, and LINK_ERROR is raised (R164). -/
theorem crcDiscard_leads (link : LinkId) (s : State) : Leads Change s (crcDiscard link s) := by
  refine .finish (fun _ _ h => h) (.tail (.single (Change.linksOf ?_)) (.cause _ .linkError))
  cases link <;> exact .of_reading rfl rfl rfl rfl id

theorem overflow_leads (link : LinkId) (s : State) : Leads Change s (overflow link s) := by
  refine .finish (fun _ _ h => h) (.tail (.single (Change.linksOf ?_)) (.cause _ .linkError))
  cases link <;> exact .of_reading rfl rfl rfl rfl id

theorem bufferFrame_leads {link : LinkId} {s : State} (hup : s.linkIsUp link = true) (f : Frame) :
    Leads Change s (bufferFrame link f s) := by
  by_cases hfits : s.HasPlace link
  · exact .ofLinks (bufferFrame_linksMove hup f hfits)
  · have hover : bufferFrame link f s = overflow link s := by
      cases link <;> simp only [bufferFrame, Config.spreadPlaces, Config.requestPlaces] <;> exact if_neg hfits
    rw [hover]
    exact overflow_leads link s

theorem frameReceipt_leads (link : LinkId) (bytes : List Byte) (s : State) :
    Leads Change s (if s.linkIsUp link then receiveFrame link bytes s else s) := by
  split
  next hup =>
    unfold receiveFrame
    split
    · exact crcDiscard_leads link s
    · exact bufferFrame_leads hup _
  · exact .refl s

theorem send_linksMove_source (s : State) : s.LinksMove { s with source := s.source.send } := by
  unfold PartnerLink.send
  split
  next m rest hup hout =>
    refine .of_reading rfl rfl rfl rfl fun hs => ?_
    obtain ⟨hspread, hsource, hrecord, hspreadDown, -, hrecordDown, hheld, hread⟩ := hs
    exact ⟨hspread, hsource, hrecord, hspreadDown, by simp [hup], hrecordDown, hheld, hread⟩
  · exact .refl s

theorem send_linksMove_record (s : State) : s.LinksMove { s with record := s.record.send } := by
  unfold PartnerLink.send
  split
  next m rest hup hout =>
    refine .of_reading rfl rfl rfl rfl fun hs => ?_
    obtain ⟨hspread, hsource, hrecord, hspreadDown, hsourceDown, -, hheld, hread⟩ := hs
    refine ⟨hspread, hsource, hrecord, hspreadDown, hsourceDown, by simp [hup], hheld, fun r hr => ?_⟩
    obtain ⟨hlow, hhigh, hqueue⟩ := hread r hr
    refine ⟨hlow, hhigh, fun h2 => ?_⟩
    have := hqueue h2
    rw [hout, List.length_cons] at this
    exact (Nat.le_succ _).trans this
  · exact .refl s

theorem linkDown_linksMove {link : LinkId} {s t : State} (h : execLinkDown link s = .next t) : s.LinksMove t := by
  cases link with
  | spread =>
    obtain rfl := Host.Outcome.next.inj h
    refine .of_reading rfl rfl rfl rfl fun hs => ?_
    obtain ⟨-, hsource, hrecord, -, hsourceDown, hrecordDown, hheld, hread⟩ := hs
    exact ⟨by simp, hsource, hrecord, by simp, hsourceDown, hrecordDown, hheld, hread⟩
  | source =>
    obtain rfl := Host.Outcome.next.inj h
    refine .of_reading rfl rfl rfl rfl fun hs => ?_
    obtain ⟨hspread, -, hrecord, hspreadDown, -, hrecordDown, hheld, hread⟩ := hs
    exact ⟨hspread, by simp, hrecord, hspreadDown, by simp, hrecordDown, hheld, hread⟩
  | record =>
    obtain rfl := Host.Outcome.next.inj h
    refine ⟨rfl, rfl, rfl, by simp, fun hs => ?_⟩
    obtain ⟨hspread, hsource, -, hspreadDown, hsourceDown, -, -, -⟩ := hs
    exact ⟨hspread, hsource, by simp, hspreadDown, hsourceDown, by simp, by simp, by simp⟩

theorem linkUp_linksMove {link : LinkId} {s t : State} (h : execLinkUp link s = .next t) : s.LinksMove t := by
  cases link <;> obtain rfl := Host.Outcome.next.inj h <;> refine .of_reading rfl rfl rfl rfl fun hs => ?_ <;>
    obtain ⟨hspread, hsource, hrecord, hspreadDown, hsourceDown, hrecordDown, hheld, hread⟩ := hs
  · exact ⟨hspread, hsource, hrecord, by simp, hsourceDown, hrecordDown, hheld, hread⟩
  · exact ⟨hspread, hsource, hrecord, hspreadDown, by simp, hrecordDown, hheld, hread⟩
  · exact ⟨hspread, hsource, hrecord, hspreadDown, hsourceDown, by simp, hheld, hread⟩

theorem messageSend_linksMove {link : LinkId} {s t : State} (h : execMessageSend link s = .next t) : s.LinksMove t := by
  cases link <;> obtain rfl := Host.Outcome.next.inj h
  · exact .refl s
  · exact send_linksMove_source s
  · exact send_linksMove_record s

/-! ### The messages of a read -/

theorem pushAll_fields (l : List Message) (p : PartnerLink) :
    (l.foldl PartnerLink.push p).up = p.up ∧ (l.foldl PartnerLink.push p).input = p.input := by
  induction l generalizing p with
  | nil => exact ⟨rfl, rfl⟩
  | cons m l ih =>
    have hpush : (p.push m).up = p.up ∧ (p.push m).input = p.input := by unfold PartnerLink.push; split <;> exact ⟨rfl, rfl⟩
    rw [List.foldl_cons, (ih _).1, (ih _).2, hpush.1, hpush.2]
    exact ⟨rfl, rfl⟩

/-- A message of the read in hand is handed on behind an empty queue: the read ends, or waits for the link (R150). -/
theorem handMessage_linksMove {s : State} {r : ReadInHand} (hr : s.reading = some r) (hcount : r.handed < r.count + 2)
    (hempty : s.record.output = []) (m : Message) : s.LinksMove (handMessage r m s) := by
  have hpush : (s.record.push m).up = s.record.up ∧ (s.record.push m).input = s.record.input := by
    unfold PartnerLink.push; split <;> exact ⟨rfl, rfl⟩
  unfold handMessage
  dsimp only
  split
  · refine ⟨rfl, rfl, rfl, by simp, fun hs => ?_⟩
    obtain ⟨hspread, hsource, hrecord, hspreadDown, hsourceDown, hrecordDown, -, -⟩ := hs
    have hup : s.record.up = true := by
      by_contra hdown
      exact absurd (hrecordDown (by simpa using hdown)).2.2 (by simp [hr])
    have hall := pushAll_fields s.heldAlerts (s.record.push m)
    exact ⟨hspread, hsource, by rw [hall.2, hpush.2]; exact hrecord, hspreadDown, hsourceDown,
      fun hdown => by rw [hall.1, hpush.1, hup] at hdown; simp at hdown, by simp, by simp⟩
  next hlast =>
    refine ⟨rfl, rfl, rfl, ?_, fun hs => ?_⟩
    · rintro r' ⟨rfl⟩
      exact ⟨r, hr, rfl⟩
    · obtain ⟨hspread, hsource, hrecord, hspreadDown, hsourceDown, hrecordDown, hheld, hread⟩ := hs
      have hup : s.record.up = true := by
        by_contra hdown
        exact absurd (hrecordDown (by simpa using hdown)).2.2 (by simp [hr])
      refine ⟨hspread, hsource, by simpa [hpush.2] using hrecord, hspreadDown, hsourceDown,
        fun hdown => absurd (hpush.1.symm.trans hdown) (by simp [hup]), by simp, ?_⟩
      rintro r' ⟨rfl⟩
      refine ⟨by simp, by simp; omega, fun _ => ?_⟩
      simp [PartnerLink.push_of_up hup, hempty]

theorem handHeader_linksMove (s : State) : s.LinksMove (handHeader s) := by
  rcases handHeader_cases s with h | ⟨r, st, hr, -, hone, hempty, h⟩ <;> rw [h]
  · exact .refl s
  · exact handMessage_linksMove hr (by omega) hempty _

theorem handTrace_linksMove (s : State) : s.LinksMove (handTrace s) := by
  rcases handTrace_cases s with h | ⟨r, st, hr, -, -, hcount, hempty, h⟩ <;> rw [h]
  · exact .refl s
  · exact handMessage_linksMove hr hcount hempty _

end Sys2Proof.Machine

/-! PROOFS. Every command and every idle step as a chain of changes. -/

namespace Sys2Proof.Machine

/-- A command's course: a chain of changes of every event, with or without the command's own change. -/
def Courses (c : Instr) (s t : State) : Prop := Leads Change s t ∨ LeadsOver c s t

/-! ### Ends of events -/

section Ends

variable {c : Instr} {s u : State} {ev : Event}

theorem LeadsOver.ofLinks {t : State} (h : s.LinksMove u) (g : LeadsOver c u t) : LeadsOver c s t := by
  obtain ⟨v, ev, hv, hsingle, hchain⟩ := g
  exact ⟨v, ev, h.trans hv, hsingle, hchain⟩

theorem Courses.ofLinks {t : State} (h : s.LinksMove u) (g : Courses c u t) : Courses c s t :=
  g.imp (Leads.ofLinks h).trans (.ofLinks h)

theorem Leads.pushReply (s : State) (link : LinkId) (f : Frame) (code : Code) (fields : List Byte)
    (hfree : link = .record → s.reading = none) : Leads Change s (s.pushReply link f code fields) :=
  .ofLinks (.pushReply s link f code fields hfree)

/-- An event that is answered: the REPLY, then the event's end. -/
theorem Leads.reply (h : Relation.ReflTransGen Change (Event.start s) ev) (link : LinkId) (f : Frame) (code : Code)
    (fields : List Byte) (hfree : link = .record → ev.st.reading = none) :
    Leads Change s (ev.reply link f code fields) := by
  have hpush : Change ev (ev.change fun u => u.pushReply link f code fields) := .linksOf (.pushReply _ _ _ _ _ hfree)
  exact .finish (fun _ _ h => h) (h.tail hpush)

theorem LeadsOver.finish (h : Single c s ev) : LeadsOver c s ev.finish :=
  ⟨s, ev, .refl s, h, .single (.flush ev)⟩

theorem LeadsOver.reply (h : Single c s ev) (link : LinkId) (f : Frame) (code : Code) (fields : List Byte)
    (hfree : link = .record → ev.st.reading = none) : LeadsOver c s (ev.reply link f code fields) := by
  have hpush : Change ev (ev.change fun u => u.pushReply link f code fields) := .linksOf (.pushReply _ _ _ _ _ hfree)
  exact ⟨s, ev, .refl s, h, .tail (.single hpush) (.flush _)⟩

theorem LeadsOver.single {t : State} (h : Single c s (Event.start t)) : LeadsOver c s t := ⟨s, _, .refl s, h, .refl⟩

theorem LeadsOver.pushReply {t : State} (h : Single c s (Event.start t)) (link : LinkId) (f : Frame) (code : Code)
    (fields : List Byte) (hfree : link = .record → t.reading = none) :
    LeadsOver c s (t.pushReply link f code fields) :=
  ⟨s, _, .refl s, h, Leads.pushReply t link f code fields hfree⟩

theorem Courses.answer (s : State) (link : LinkId) (f : Frame) (code : Code) (fields : List Byte)
    (hfree : link = .record → s.reading = none) : Courses c s (s.pushReply link f code fields) :=
  .inl (.pushReply s link f code fields hfree)

/-- A request's course is its server's. -/
theorem request_courses {serve : Frame → State → State} {link : LinkId}
    (h : ∀ f u, (link = .record → u.reading = none) → Courses c u (serve f u)) (kind : Nat) (fits : List Byte → Bool)
    (s : State) : Courses c s (request link kind fits serve s) := by
  rcases request_cases link kind fits serve s with hr | ⟨f, u, htake, -, hr | ⟨-, hr⟩⟩ <;> rw [hr]
  · exact .inl (.refl s)
  · exact (Courses.answer u link f _ _ (takeRequest_reading htake)).ofLinks (.takeRequest htake)
  · exact (h f u (takeRequest_reading htake)).ofLinks (.takeRequest htake)

end Ends

/-! ### Pilot slots (chapter 3) -/

section Pilots

variable {ev : Event} {s : State} {p : Fin Config.pilots}

theorem Change.setPilot {f : State → State} {v : PilotSlot} (hf : f ev.st = ev.st.setPilot p v)
    (h : (ev.st.pilots[p]).Moves ev.st.clock v) : Change ev (ev.change f) := by
  have heq : ev.change f = ev.change fun s => { s with pilots := ev.st.pilots.set p v } := by
    unfold Event.change; rw [hf]; rfl
  rw [heq]
  refine .pilots fun q => ?_
  by_cases hpq : p = q
  · subst hpq; simpa using h
  · have hval : p.val ≠ q.val := fun h => hpq (Fin.ext h)
    simpa [Vector.getElem_set, hval] using PilotSlot.Moves.refl _ _

theorem openPilot_moves (s : State) {n : Nat} (hlo : 1024 ≤ n) (hhi : n ≤ 16384) (i : Fin 4) (p : PilotSlot) :
    p.Moves s.clock (openPilot s n i p).2 := by
  unfold openPilot
  have hfill : p.phase.isReady = true → ¬ 1 ≤ p.pins →
      p.Moves s.clock { p with phase := .filling n i [] (s.startTimer Config.fillTimerMs) } := fun _ hpins =>
    ⟨rfl, fun _ h => (hpins h).elim, fun _ => by rintro m ⟨⟩; exact ⟨hlo, hhi⟩,
      by rintro t ⟨⟩; exact .inr (by simp [State.startTimer])⟩
  split
  · exact .refl _ _
  next hphase =>
    split
    · exact .refl _ _
    next hpins => exact hfill (by simp [hphase, PilotPhase.isReady]) hpins
  next hready =>
    refine ⟨rfl, fun h => ?_, fun _ => by rintro m ⟨⟩; exact ⟨hlo, hhi⟩,
      by rintro t ⟨⟩; exact .inr (by simp [State.startTimer])⟩
    cases hphase : p.phase with
    | ready a b c d => exact (hready a b c d hphase).elim
    | _ => simp [hphase, PilotPhase.isReady] at h

theorem storePart_moves (s : State) (offset : Nat) (samples : List (BitVec 16)) (p : PilotSlot) :
    p.Moves s.clock (storePart s offset samples p).2 := by
  unfold storePart
  split
  next n i held timer hphase =>
    split
    · exact .refl _ _
    split
    · exact .refl _ _
    · exact ⟨rfl, by simp [hphase, PilotPhase.isReady], fun h => by rintro m ⟨⟩; exact h n (by rw [hphase]; rfl),
        by rintro t ⟨⟩; exact .inr (by simp [State.startTimer])⟩
  · exact .refl _ _

theorem closePilot_moves (clock : Nat) (p : PilotSlot) : p.Moves clock (closePilot p).2 := by
  unfold closePilot
  split
  next n i held timer hphase =>
    split
    · exact .refl _ _
    · exact ⟨rfl, by simp [hphase, PilotPhase.isReady], fun h => by rintro m ⟨⟩; exact h n (by rw [hphase]; rfl),
        by simp [PilotPhase.fillTimer]⟩
  · exact .refl _ _

/-- A slot that is not pinned while READY may go EMPTY. -/
theorem PilotSlot.moves_empty (clock : Nat) {p : PilotSlot} (h : p.phase.isReady = true → p.pins = 0)
    (r : PilotResult) : p.Moves clock { p with phase := .empty, lastResult := r } :=
  ⟨rfl, fun hready hpins => absurd (h hready) (by omega), fun _ => by simp [PilotPhase.InRange, PilotPhase.length?],
    by simp [PilotPhase.fillTimer]⟩

theorem purgeSlot_moves (clock : Nat) (named : Bool) (p : PilotSlot) : p.Moves clock (purgeSlot named p) := by
  unfold purgeSlot
  split
  next h =>
    simp only [Bool.and_eq_true, decide_eq_true_eq] at h
    refine p.moves_empty clock (fun hready => ?_) .purged
    have hfree := (purgeAction_eq_purged_iff p).1 h.2
    rcases hfree with ⟨a, b, c, d, hphase⟩ | ⟨-, hpins⟩
    · simp [hphase, PilotPhase.isReady] at hready
    · exact hpins
  · exact .refl _ _

theorem purgeSlots_moves (clock set : Nat) (v : Vector PilotSlot Config.pilots) (p : Fin Config.pilots) :
    (v[p]).Moves clock (purgeSlots set v)[p] := by
  have h : (purgeSlots set v)[p] = purgeSlot (inSlotSet set p) v[p] := by
    unfold purgeSlots
    rw [Fin.getElem_fin, zipFirstVec_getElem]
    simp
  rw [h]
  exact purgeSlot_moves clock _ _

theorem fillTimeout_leads (k : Fin Config.pilots) (s : State) : Leads Change s (fillTimeout k s) := by
  unfold fillTimeout
  split
  next hphase =>
    refine .finish (fun _ _ h => h) (.tail (.single (.setPilot rfl ?_)) (.cause _ .pilotFault))
    exact PilotSlot.moves_empty _ (fun hready => absurd hready (by rw [Event.start_st, hphase]; simp [PilotPhase.isReady])) _
  · exact .refl s

theorem commitCompletion_leads (k : Fin Config.pilots) (s : State) : Leads Change s (commitCompletion k s) := by
  unfold commitCompletion
  split
  next n i samples hphase =>
    split
    · refine .single (Change.setPilot (ev := Event.start s) (f := fun u => u.setPilot k _) rfl ?_)
      exact ⟨rfl, fun _ _ => rfl, fun h => by rintro m ⟨⟩; exact h n (by rw [Event.start_st, hphase]; rfl),
        by simp [PilotPhase.fillTimer]⟩
    · refine .finish (fun _ _ h => h) (.tail (.single (.setPilot rfl ?_)) (.cause _ .pilotFault))
      exact PilotSlot.moves_empty _ (fun hready => absurd hready (by rw [Event.start_st, hphase]; simp [PilotPhase.isReady])) _
  · exact .refl s

variable (s) (f : Frame)

theorem setPilot_answer {v : PilotSlot} (h : (s.pilots[p]).Moves s.clock v) (code : Code) (fields : List Byte) :
    Leads Change s ((s.setPilot p v).pushReply .source f code fields) :=
  .trans (.single (Change.setPilot (ev := Event.start s) (f := fun u => u.setPilot p v) rfl h))
    (.pushReply _ .source f code fields nofun)

theorem refuseNoPilot_leads (n : Nat) : Leads Change s (refuseNoPilot f s n) :=
  (Leads.pushReply s .source f _ _ nofun).trans (.ofLinks (.useFree _ n))

theorem servePilotOpen_leads : Leads Change s (servePilotOpen f s) := by
  unfold servePilotOpen
  dsimp only
  split
  · exact refuseNoPilot_leads s f 9
  split
  · exact .pushReply s _ f _ _ nofun
  split
  next hrange => exact setPilot_answer s f (openPilot_moves s hrange.1 hrange.2 _ _) _ _
  · exact .pushReply s _ f _ _ nofun

theorem servePilotPart_leads : Leads Change s (servePilotPart f s) := by
  unfold servePilotPart
  dsimp only
  split
  · exact refuseNoPilot_leads s f 4
  split
  · exact setPilot_answer s f (storePart_moves s _ _ _) _ _
  · exact .pushReply s _ f _ _ nofun

theorem servePilotClose_leads : Leads Change s (servePilotClose f s) := by
  unfold servePilotClose
  split
  · exact .pushReply s _ f _ _ nofun
  · exact setPilot_answer s f (closePilot_moves _ _) _ _

theorem servePilotQuery_leads : Leads Change s (servePilotQuery f s) := by
  unfold servePilotQuery
  split <;> exact .pushReply s _ f _ _ nofun

theorem servePilotPurge_leads : Leads Change s (servePilotPurge f s) :=
  .trans (.single (Change.pilots (ev := Event.start s) fun p => purgeSlots_moves _ (halfAt f.payload 0) _ p))
    (.pushReply _ .source f _ _ nofun)

end Pilots

/-! ### Sweeps and stacks (chapters 4, 5 and 7) -/

section Sweeps

variable (f : Frame) (s : State)

theorem findSweep_mem {s : State} {n : Word32} {e : SweepEntry} (h : s.findSweep n = some e) : e ∈ s.sweeps :=
  List.mem_of_find?_eq_some h

theorem serveSweepReport_leads : Leads Change s (serveSweepReport f s) := by
  unfold serveSweepReport
  dsimp only
  split
  · exact .pushReply s _ f _ _ nofun
  split
  · exact .pushReply s _ f _ _ nofun
  split
  · exact .pushReply s _ f _ _ nofun
  next e he =>
    split
    · exact .pushReply s _ f _ _ nofun
    · exact .pushReply s _ f _ _ nofun
    · exact .pushReply s _ f _ _ nofun
    next hpending =>
      refine Leads.reply (.single (.settle (findSweep_mem he) (.inl hpending) ?_ ?_)) _ _ _ _ nofun
      · split <;> simp
      · split <;> simp_all

theorem reportTimerExpiry_leads (n : Word32) : Leads Change s (reportTimerExpiry n s) := by
  unfold reportTimerExpiry
  split
  · exact .refl s
  next e he =>
    split
    · exact .refl s
    next t ht =>
      refine .finish (fun _ _ h => h) (.single (.settle (findSweep_mem he) (.inr (by simp [ht])) (by simp) ?_))
      simp [FailSet.isEmpty]

theorem serveSweepCancel_leads : Leads Change s (serveSweepCancel f s) := by
  unfold serveSweepCancel
  split
  · exact .pushReply s _ f _ _ nofun
  next e he =>
    split
    · exact .pushReply s _ f _ _ nofun
    next hmerging =>
      refine Leads.reply (.single (.resolve ?_ (by simp) (findSweep_mem he))) _ _ _ _ nofun
      simpa [SweepEntry.isDroppable] using hmerging

theorem openStack_eq {s : State} {fl : Fin Config.fleets} {k : Fin Config.stackSlots} {st : Stack}
    (h : s.openStack fl = some (k, st)) : (s.fleets[fl]).openSlot = some k ∧ s.slots[k] = some st := by
  unfold State.openStack at h
  split at h
  · simp at h
  next k' hk =>
    split at h
    · simp at h
    next st' hst =>
      obtain ⟨rfl, rfl⟩ := Prod.mk.inj (Option.some.inj h)
      exact ⟨hk, hst⟩

theorem serveVpEnd_leads : Leads Change s (serveVpEnd f s) := by
  unfold serveVpEnd
  split
  · exact .pushReply s _ f _ _ nofun
  next fl _ =>
    split
    · exact .pushReply s _ f _ _ nofun
    next k st hopen =>
      obtain ⟨hslot, hst⟩ := openStack_eq hopen
      split
      · split
        · exact Leads.reply (.single (.sealed _ hst (.inr ⟨fl, hslot⟩))) _ _ _ _ nofun
        · exact .trans (.single (Change.linger (ev := Event.start s) _ hslot hst)) (.pushReply _ _ f _ _ nofun)
      · exact .pushReply s _ f _ _ nofun

theorem lingerExpiry_leads (k : Fin Config.stackSlots) : Leads Change s (lingerExpiry k s) := by
  unfold lingerExpiry
  split
  · exact .refl s
  next st hst =>
    split
    next t hphase =>
      exact .finish (fun _ _ h => h) (.single (.sealed _ hst (.inl (by simp [Stack.isJoinable, hphase]))))
    · exact .refl s

theorem sealSlot_reading (k : Fin Config.stackSlots) (cause : SealCause) (st : Stack) (ev : Event) :
    (sealSlot k cause st ev).st.reading = ev.st.reading := by
  rw [sealSlot_eq]
  unfold State.sealedAs
  dsimp only
  split <;> rfl

theorem serveStackSeal_leads {s : State} (hfree : s.reading = none) : Leads Change s (serveStackSeal f s) := by
  unfold serveStackSeal
  dsimp only
  split
  · exact (Leads.pushReply s _ f _ _ fun _ => hfree).trans (.ofLinks (.useFree _ _))
  split
  · split
    · exact .pushReply s _ f _ _ fun _ => hfree
    next st hst =>
      split
      next hjoin =>
        split
        · exact .pushReply s _ f _ _ fun _ => hfree
        · refine Leads.reply (.single (.sealed _ hst (.inl hjoin))) _ _ _ _ fun _ => ?_
          rw [sealSlot_reading]; exact hfree
      · exact .pushReply s _ f _ _ fun _ => hfree
  · exact .pushReply s _ f _ _ fun _ => hfree

theorem grantNext_leads : Leads Change s (grantNext s) := by
  rcases grantNext_cases s with ⟨e, l, he, hl, h⟩ | ⟨-, h⟩ <;> rw [h]
  · exact .single (Change.grant (ev := Event.start s) he hl)
  · exact .refl s

end Sweeps

/-! ### Requests that only read, and unknown kinds -/

section Reads

variable (f : Frame) {s : State} (hfree : s.reading = none)

include hfree

theorem serveChannelRead_leads : Leads Change s (serveChannelRead f s) := by
  unfold serveChannelRead
  dsimp only
  split
  · exact .pushReply s _ f _ _ fun _ => hfree
  · exact .trans (.single (Change.latches (Event.start s) _ _)) (.pushReply _ _ f _ _ fun _ => hfree)

theorem serveFleetRead_leads : Leads Change s (serveFleetRead f s) := by
  unfold serveFleetRead
  split <;> exact .pushReply s _ f _ _ fun _ => hfree

theorem serveStackStatus_leads : Leads Change s (serveStackStatus f s) := by
  unfold serveStackStatus
  dsimp only
  split
  · exact .pushReply s _ f _ _ fun _ => hfree
  split
  · exact .pushReply s _ f _ _ fun _ => hfree
  split
  · split
    · exact (Leads.pushReply s _ f _ _ fun _ => hfree).trans (.ofLinks (.useFree _ _))
    · exact .pushReply s _ f _ _ fun _ => hfree
  · exact .pushReply s _ f _ _ fun _ => hfree

theorem serveAlertAck_leads : Leads Change s (serveAlertAck f s) :=
  (Leads.ofLinks (.setPending s (s.alerts.pending &&& ~~~(carriedSet f)))).trans (.pushReply _ .record f _ _ fun _ => hfree)

end Reads

theorem execUnknownKind_leads {link : LinkId} {s t : State} (h : execUnknownKind link s = .next t) :
    Leads Change s t := by
  unfold execUnknownKind at h
  split at h
  · obtain rfl := Host.Outcome.next.inj h
    exact .refl s
  next f u htake =>
    obtain rfl := Host.Outcome.next.inj h
    split
    · exact .refl s
    · exact (Leads.ofLinks (.takeRequest htake)).trans (.pushReply _ _ f _ _ (takeRequest_reading htake))

/-! ### Requests with a change of their own -/

section Own

variable (f : Frame) (s : State)

theorem serveSweepAnnounce_courses : Courses .sweepAnnounce s (serveSweepAnnounce f s) := by
  have hrefuse : ∀ code, Courses .sweepAnnounce s (refuseAnnounce f code s) := fun code => by
    refine .inl (Leads.reply ?_ _ _ _ _ nofun)
    unfold Event.addCauseIf
    split
    · exact .single (.cause _ _)
    · exact .refl
  unfold serveSweepAnnounce
  dsimp only
  split
  next fl p _ _ =>
    split
    · split
      next n i samples energy hready =>
        split
        · exact hrefuse _
        next hpass =>
          unfold announceRefusal at hpass
          split at hpass; · simp at hpass
          split at hpass; · simp at hpass
          next hbounds =>
          split at hpass; · simp at hpass
          split at hpass; · simp at hpass
          next htable =>
          have htable : s.sweeps.length < 32 := by simpa [Config.sweepEntries] using htable
          have hbounds : t0InBounds s (wordAt f.payload 6) = true := by simpa using hbounds
          unfold announceStack stackMatch
          split
          · exact hrefuse _
          next k st hmatch =>
            split at hmatch
            · unfold matchFree at hmatch; split at hmatch <;> simp at hmatch
            next k' st' hopen =>
              split at hmatch
              · split at hmatch
                next hfold =>
                  split at hmatch
                  next hlisten =>
                    obtain ⟨rfl, rfl⟩ := StackMatch.join.inj hmatch
                    exact .inr ⟨s, _, .refl s, .join hready hbounds htable hopen hfold hlisten,
                      Leads.pushReply (addSweep (newEntry s fl (wordAt f.payload 1) k' p (wordAt f.payload 6) n energy)
                        (s.joinSlot k' st')) .source f _ _ nofun⟩
                  · simp at hmatch
                · simp at hmatch
              · unfold matchFree at hmatch; split at hmatch <;> simp at hmatch
          next k hmatch =>
            have hfreeSlot : s.firstFree = some k → s.slots[k] = none := fun h => by
              simpa using List.find?_some h
            have hown : s.slots[k] = none ∧ ∀ k0 st0, s.openStack fl = some (k0, st0) → st0.vp ≠ wordAt f.payload 1 := by
              have hmatchFree : matchFree s = .fresh k → s.slots[k] = none := fun h => by
                unfold matchFree at h
                split at h
                · simp at h
                next k' hk' => exact hfreeSlot (StackMatch.fresh.inj h ▸ hk')
              split at hmatch
              next hopen => exact ⟨hmatchFree hmatch, fun k0 st0 h => by rw [hopen] at h; simp at h⟩
              next k' st' hopen =>
                split at hmatch
                · split at hmatch
                  · split at hmatch <;> simp at hmatch
                  · simp at hmatch
                next hvp =>
                  refine ⟨hmatchFree hmatch, fun k0 st0 h => ?_⟩
                  rw [hopen] at h
                  obtain ⟨rfl, rfl⟩ := Prod.mk.inj (Option.some.inj h)
                  exact hvp
            exact .inr (LeadsOver.reply (.fresh hready hbounds htable hown.1 hown.2) _ _ _ _ nofun)
      · exact hrefuse _
    · exact hrefuse _
  · exact hrefuse _

variable {s} (hfree : s.reading = none)

include hfree

theorem serveSetupStream_courses : Courses .setupStream s (serveSetupStream f s) := by
  unfold serveSetupStream
  dsimp only
  split
  · exact .answer s _ f _ _ fun _ => hfree
  split
  · exact .answer s _ f _ _ fun _ => hfree
  next i _ hchannels =>
    split
    next hquiet => exact .inr (.pushReply (.setup i (by omega) hquiet) _ f _ _ fun _ => hfree)
    · exact .answer s _ f _ _ fun _ => hfree

theorem serveChannelSet_courses : Courses .channelSet s (serveChannelSet f s) := by
  unfold serveChannelSet
  dsimp only
  split
  · exact .answer s _ f _ _ fun _ => hfree
  split
  · exact .answer s _ f _ _ fun _ => hfree
  split
  · exact .answer s _ f _ _ fun _ => hfree
  · exact .inr (.pushReply (.channelSet s _ _) _ f _ _ fun _ => hfree)

theorem serveFleetSet_courses : Courses .fleetSet s (serveFleetSet f s) := by
  unfold serveFleetSet
  dsimp only
  split
  · exact .answer s _ f _ _ fun _ => hfree
  next fl _ =>
    split
    · have hrange := clamp_range 256 8192 (halfAt f.payload 3) (by omega)
      exact .inr (.pushReply (.fleetSet s fl _ hrange.1 hrange.2) _ f _ _ fun _ => hfree)
    · exact .answer s _ f _ _ fun _ => hfree

theorem serveAlertMask_courses : Courses .alertMask s (serveAlertMask f s) := by
  have hpush := LeadsOver.pushReply (.mask (s := s) (carriedSet f)) .record f .done
    (maskFields { s with alerts := { s.alerts with mask := carriedSet f } }) fun _ => hfree
  unfold serveAlertMask
  dsimp only
  split
  · exact .inr hpush
  · obtain ⟨u, ev, hu, hsingle, hchain⟩ := hpush
    exact .inr ⟨u, ev, hu, hsingle, hchain.trans (Leads.ofLinks (.sendAlert _))⟩

theorem serveStackRelease_courses : Courses .stackRelease s (serveStackRelease f s) := by
  unfold serveStackRelease
  split
  · exact .answer s _ f _ _ fun _ => hfree
  split
  · exact .answer s _ f _ _ fun _ => hfree
  next k _ st hst =>
    split
    next hsealed => exact .inr (.pushReply (.release hfree hst hsealed) _ f _ _ fun _ => hfree)
    · exact .answer s _ f _ _ fun _ => hfree

omit hfree in
theorem moveToHarvesting_pushReply (k : Fin Config.stackSlots) (st : Stack) (f : Frame) (code : Code)
    (fields : List Byte) : (moveToHarvesting k st s).pushReply .record f code fields =
      moveToHarvesting k st (s.pushReply .record f code fields) := by
  unfold moveToHarvesting
  split <;> rfl

theorem serveRecordRead_courses : Courses .recordRead s (serveRecordRead f s) := by
  unfold serveRecordRead
  dsimp only
  split
  next k mode width _ _ _ =>
    split
    · exact .answer s _ f _ _ fun _ => hfree
    split
    · exact .answer s _ f _ _ fun _ => hfree
    next st hst =>
      split
      next hsealed =>
        unfold acceptRead
        dsimp only
        rw [moveToHarvesting_pushReply]
        exact .inr (.ofLinks (.pushReply s .record f _ _ fun _ => hfree) (.single (.read hst hsealed rfl)))
      · exact .answer s _ f _ _ fun _ => hfree
  · exact .answer s _ f _ _ fun _ => hfree

theorem serveDeviceClear_courses : Courses .deviceClear s (serveDeviceClear f s) :=
  .inr (.reply (.clear hfree) _ f _ _ fun _ => rfl)

end Own

end Sys2Proof.Machine

/-! PROOFS. The ring's reports, rows and restarts (chapter 1), the passing of time, and then every step as a chain. -/

namespace Sys2Proof.Machine

/-! ### Resolutions of one report (R78 to R82) -/

/-- Entries that stand in the table in their order still do when the first of them has been taken out by its number. -/
theorem sublist_removeFirst_number {e : SweepEntry} {l sweeps : List SweepEntry} (h : (e :: l).Sublist sweeps) :
    l.Sublist (removeFirst (fun x => decide (x.number = e.number)) sweeps) := by
  induction sweeps with
  | nil => simp at h
  | cons a sweeps ih =>
    by_cases hnumber : a.number = e.number
    · simpa [removeFirst, hnumber] using h.tail
    · rcases List.sublist_cons_iff.1 h with hrest | ⟨l', heq, -⟩
      · simpa [removeFirst, hnumber] using (ih hrest).cons a
      · exact absurd (List.cons.inj heq).1.symm fun h => hnumber (h ▸ rfl)

/-- Entries of the table are resolved one after the other: each is still in the table when its turn comes. -/
theorem resolveList_chain {out : SweepOutcome} (hout : out ≠ .droppedClear) (l : List SweepEntry) (ev : Event)
    (hdrop : ∀ e ∈ l, e.isDroppable = true) (hsublist : l.Sublist ev.st.sweeps) :
    Relation.ReflTransGen Change ev (l.foldl (fun ev e => resolve out none e ev) ev) := by
  induction l generalizing ev with
  | nil => exact .refl
  | cons e l ih =>
    refine .head (.resolve (hdrop e (by simp)) hout (hsublist.subset (by simp)))
      (ih _ (fun a ha => hdrop a (by simp [ha])) ?_)
    rw [resolve_sweeps]
    exact sublist_removeFirst_number hsublist

theorem resolveAll_chain {p : SweepEntry → Bool} {out : SweepOutcome} (hout : out ≠ .droppedClear)
    (hp : ∀ e, p e = true → e.isDroppable = true) (ev : Event) :
    Relation.ReflTransGen Change ev (resolveAll p out ev) :=
  resolveList_chain hout _ ev (fun e he => hp e (List.mem_filter.1 he).2) List.filter_sublist

theorem dropAll_chain {p : SweepEntry → Bool} {out : SweepOutcome} (hout : out ≠ .droppedClear)
    (hp : ∀ e, p e = true → e.isDroppable = true) (ev : Event) :
    Relation.ReflTransGen Change ev (dropAll p out ev) := by
  unfold dropAll Event.addCauseIf
  split
  · exact (resolveAll_chain hout hp ev).tail (.cause _ _)
  · exact resolveAll_chain hout hp ev

theorem isDroppable_of_waiting {e : SweepEntry} (h : e.stage = .waiting) : e.isDroppable = true := by
  simp [SweepEntry.isDroppable, h, Stage.isMerging]

/-! ### What a row does to a channel's settings (R25) -/

theorem Channel.SameSettings.refl (c : Channel) : c.SameSettings c := ⟨rfl, rfl, rfl, rfl⟩

theorem Channel.SameSettings.trans {c d e : Channel} (h : c.SameSettings d) (g : d.SameSettings e) :
    c.SameSettings e :=
  ⟨g.1.trans h.1, g.2.1.trans h.2.1, g.2.2.1.trans h.2.2.1, g.2.2.2.trans h.2.2.2⟩

theorem takeSample_settings (gap : Bool) (c : Channel) (w : RingWord) : c.SameSettings (takeSample gap c w) := by
  unfold takeSample
  split <;> exact ⟨rfl, rfl, rfl, rfl⟩

theorem judgeDead_settings (level : Nat) (c : Channel) : c.SameSettings (judgeDead level c) := by
  unfold judgeDead
  split
  · dsimp only
    split <;> exact ⟨rfl, rfl, rfl, rfl⟩
  · exact ⟨rfl, rfl, rfl, rfl⟩

theorem completeInterval_settings (c : Channel) : c.SameSettings (completeInterval c) := by
  unfold completeInterval
  split
  · split
    · exact ⟨rfl, rfl, rfl, rfl⟩
    · have hnoise : ∀ level (d : Channel), d.SameSettings (judgeNoise level d) := fun level d => by
        unfold judgeNoise
        split <;> exact ⟨rfl, rfl, rfl, rfl⟩
      exact Channel.SameSettings.trans (d := { c with lastLevel := intervalLevel c.intervalSum, intervalSum := 0 })
        ⟨rfl, rfl, rfl, rfl⟩ ((judgeDead_settings _ _).trans (hnoise _ _))
  · exact .refl c

theorem Monitor.takeRow_table (m : Monitor) (channels : Nat) (ssn : Ssn) (gap : Bool) (words : List RingWord) :
    (m.takeRow channels ssn gap words).table = zipFirstVec (takeSample gap) m.table words ∨
      (m.takeRow channels ssn gap words).table =
        mapFirstVec completeInterval channels (zipFirstVec (takeSample gap) m.table words) := by
  unfold Monitor.takeRow
  generalize (if m.origin = none then 0 else m.position) = position
  dsimp only
  split
  · exact .inr rfl
  · exact .inl rfl

theorem takeRow_settings (m : Monitor) (channels : Nat) (ssn : Ssn) (gap : Bool) (words : List RingWord)
    (i : Fin Config.channels) : (m.table[i]).SameSettings (m.takeRow channels ssn gap words).table[i] := by
  have htaken : (m.table[i]).SameSettings (zipFirstVec (takeSample gap) m.table words)[i] := by
    simp only [Fin.getElem_fin, zipFirstVec_getElem]
    split
    · exact .refl _
    · exact takeSample_settings gap _ _
  rcases m.takeRow_table channels ssn gap words with h | h <;> rw [h]
  · exact htaken
  · refine htaken.trans ?_
    simp only [Fin.getElem_fin, mapFirstVec_getElem]
    split
    · exact completeInterval_settings _
    · exact .refl _

theorem restart_settings (m : Monitor) (o : Option Ssn) (i : Fin Config.channels) :
    (m.table[i]).SameSettings (m.restart o).table[i] := by
  simp only [Monitor.restart, Fin.getElem_fin, mapVec_getElem]
  exact ⟨rfl, rfl, rfl, rfl⟩

/-! ### Rows and restarts (R10 to R20) -/

theorem StreamChange.streamOf {ev : Event} {f : State → State} (h : ev.st.StreamMove (f ev.st)) :
    StreamChange ev (ev.change f) :=
  .stream h

/-- A chain of changes of every event is one of the stream's. -/
theorem streamChain {a b : Event} (h : Relation.ReflTransGen Change a b) : Relation.ReflTransGen StreamChange a b :=
  Relation.ReflTransGen.mono (fun _ _ => .change) _ _ h

theorem State.StreamMove.ofIngest {s t : State} (hframe : t = { s with ring := t.ring, ingest := t.ingest })
    (hchannels : t.ingest.channels = s.ingest.channels) (hinterval : t.ingest.interval = s.ingest.interval) :
    s.StreamMove t := by
  have hmonitor : t.monitor = s.monitor := by rw [hframe]
  refine ⟨?_, hchannels, hinterval, fun i => by rw [hmonitor]; exact .refl _⟩
  rw [hmonitor]; exact hframe

theorem arrivalReport_chain (n : Ssn) (wasEmpty : Bool) (ev : Event) :
    Relation.ReflTransGen StreamChange ev (arrivalReport n wasEmpty ev) := by
  have hfirst : Relation.ReflTransGen StreamChange ev (if wasEmpty = true then firstArrival n ev else ev) := by
    split
    · refine streamChain (dropAll_chain (by simp) (fun e he => ?_) ev)
      simp only [Bool.and_eq_true, decide_eq_true_eq] at he
      exact isDroppable_of_waiting he.1
    · exact .refl
  unfold arrivalReport
  dsimp only
  refine (hfirst.tail (.arrive _ n)).trans (streamChain (resolveAll_chain (by simp) (fun e he => ?_) _))
  simp only [Bool.and_eq_true, decide_eq_true_eq] at he
  exact isDroppable_of_waiting he.1.2

theorem departOldest_chain (ev : Event) : Relation.ReflTransGen StreamChange ev (departOldest ev) := by
  unfold departOldest
  split
  · split
    · exact .refl
    next r rest hring =>
      refine .head (.streamOf (.ofIngest rfl rfl rfl)) (streamChain (dropAll_chain (by simp) (fun e he => ?_) _))
      simp only [Bool.and_eq_true] at he
      exact he.1
  · exact .refl

theorem handRow_chain (ssn : Ssn) (gap : Bool) (words : List RingWord) (ev : Event) :
    Relation.ReflTransGen StreamChange ev (handRow ssn gap words ev) := by
  have hmove : StreamChange ev
      (ev.change fun s => { s with monitor := s.monitor.takeRow s.ingest.channels ssn gap words }) :=
    .streamOf ⟨rfl, rfl, rfl, takeRow_settings _ _ _ _ _⟩
  unfold handRow Event.addCauseIf
  split
  · exact .tail (.single hmove) (.change (.cause _ _))
  · exact .single hmove

theorem appendRow_chain (gap : Bool) (ev : Event) (words : List RingWord) :
    Relation.ReflTransGen StreamChange ev (appendRow gap ev words) := by
  unfold appendRow
  dsimp only
  refine .trans ?_ (handRow_chain _ _ _ _)
  exact ((departOldest_chain ev).tail (.streamOf (.ofIngest rfl rfl rfl))).trans (arrivalReport_chain _ _ _)

theorem appendRows_chain (gap : Bool) (rows : List (List RingWord)) (ev : Event) :
    Relation.ReflTransGen StreamChange ev (rows.foldl (appendRow gap) ev) := by
  induction rows generalizing ev with
  | nil => exact .refl
  | cons w rows ih => exact (appendRow_chain gap ev w).trans (ih _)

theorem appendBlock_chain (rows : List (List SampleWord)) (ev : Event) :
    Relation.ReflTransGen StreamChange ev (appendBlock rows ev) :=
  .head (.streamOf (.ofIngest rfl rfl rfl)) (appendRows_chain false _ _)

theorem fillGap_chain (d : Nat) (ev : Event) : Relation.ReflTransGen StreamChange ev (fillGap d ev) :=
  .head (.streamOf (.ofIngest rfl rfl rfl)) (.head (.change (.cause _ _)) (appendRows_chain true _ _))

theorem restartStream_chain (o : Ssn) (ev : Event) : Relation.ReflTransGen StreamChange ev (restartStream o ev) := by
  unfold restartStream restartReport
  dsimp only
  refine .tail (.tail (.head (.streamOf (.ofIngest rfl rfl rfl))
    (streamChain (dropAll_chain (by simp) (fun e he => he) _))) (.slip _)) (.streamOf ?_)
  exact ⟨rfl, rfl, rfl, restart_settings _ _⟩

theorem placeBlock_chain (first expected : Ssn) (rows : List (List SampleWord)) (ev : Event) :
    Relation.ReflTransGen StreamChange ev (placeBlock first expected rows ev) := by
  unfold placeBlock
  dsimp only
  split
  · exact appendBlock_chain rows ev
  split
  · exact (fillGap_chain _ ev).trans (appendBlock_chain rows _)
  split
  · exact (Relation.ReflTransGen.head (.change (.cause ev .streamFault)) (restartStream_chain first _)).trans
      (appendBlock_chain rows _)
  · exact .head (.streamOf (.ofIngest rfl rfl rfl)) (.head (.change (.cause _ .streamFault)) (appendBlock_chain _ _))

theorem handleRowBlock_chain (p : List Byte) (ev : Event) :
    Relation.ReflTransGen StreamChange ev (handleRowBlock p ev) := by
  have hdiscard : Relation.ReflTransGen StreamChange ev (discardBlock ev) :=
    .tail (.single (.streamOf (.ofIngest rfl rfl rfl))) (.change (.cause _ .streamFault))
  unfold handleRowBlock
  dsimp only
  split
  · exact hdiscard
  split
  · exact hdiscard
  split
  · exact .head (.streamOf (.ofIngest rfl rfl rfl)) (appendBlock_chain _ _)
  · exact placeBlock_chain _ _ _ ev

theorem handleStreamStart_chain (o : Ssn) (ev : Event) :
    Relation.ReflTransGen StreamChange ev (handleStreamStart o ev) := by
  unfold handleStreamStart Event.addCauseIf
  split
  · exact .head (.change (.cause ev .streamFault)) (restartStream_chain o _)
  · exact restartStream_chain o ev

/-- ROW BLOCK and STREAM START (R10, R14). -/
theorem exec_stream_leads {c : Instr} (hc : c = .rowBlock ∨ c = .streamStart) {s t : State} (h : exec c s = .next t) :
    Leads StreamChange s t := by
  have hevent : ∀ {f u ev}, s.takeSpread = some (f, u) → Relation.ReflTransGen StreamChange (Event.start u) ev →
      Leads StreamChange s ev.finish := fun htake hchain =>
    (Leads.mono (fun _ _ => .change) (.ofLinks (.takeSpread htake))).trans (.finish (fun _ _ => .change) hchain)
  rcases hc with rfl | rfl
  · change execRowBlock s = .next t at h
    unfold execRowBlock at h
    split at h <;> obtain rfl := Host.Outcome.next.inj h
    · exact .refl s
    next f u htake =>
      split
      · exact hevent htake (handleRowBlock_chain _ _)
      · exact .refl s
  · change execStreamStart s = .next t at h
    unfold execStreamStart at h
    split at h <;> obtain rfl := Host.Outcome.next.inj h
    · exact .refl s
    next f u htake =>
      split
      · exact hevent htake (handleStreamStart_chain _ _)
      · exact .refl s

/-! ### Time (section 0.5) -/

theorem clockLeads {s t : State} (h : Leads Change s t) : Leads ClockChange s t := h.mono fun _ _ => .change

theorem passTo_leads (time : Nat) (s : State) : Leads ClockChange s (passTo time s) :=
  passTo_induction (P := Leads ClockChange s) (fun t h => h.trans (clockLeads (grantNext_leads t)))
    (fun t _ h hm => h.trans (.single (.clock (ev := Event.start t) hm)))
    (fun t k h => h.trans (clockLeads (fillTimeout_leads k t)))
    (fun t n h => h.trans (clockLeads (reportTimerExpiry_leads t n)))
    (fun t k h => h.trans (clockLeads (lingerExpiry_leads t k))) time (.refl s)

theorem idle_leads (s : State) : Leads ClockChange s (idle s) := by
  unfold idle tick
  split
  · exact clockLeads (grantNext_leads s)
  · exact passTo_leads _ s

/-- The commanded expiries (R45, R93, R131). -/
theorem exec_expiry_leads {c : Instr}
    (hc : (∃ p, c = .fillTimeout p) ∨ (∃ n, c = .reportTimerExpiry n) ∨ ∃ k, c = .lingerExpiry k) {s t : State}
    (h : exec c s = .next t) : Leads ClockChange s t := by
  rcases hc with ⟨p, rfl⟩ | ⟨n, rfl⟩ | ⟨k, rfl⟩
  · change execFillTimeout p s = .next t at h
    unfold execFillTimeout at h
    split at h
    · obtain rfl := Host.Outcome.next.inj h; exact .refl s
    split at h <;> obtain rfl := Host.Outcome.next.inj h
    · exact .refl s
    · exact (passTo_leads _ s).trans (clockLeads (fillTimeout_leads _ _))
  · change execReportTimerExpiry n s = .next t at h
    unfold execReportTimerExpiry at h
    split at h <;> obtain rfl := Host.Outcome.next.inj h
    · exact .refl s
    · exact (passTo_leads _ s).trans (clockLeads (reportTimerExpiry_leads _ _))
  · change execLingerExpiry k s = .next t at h
    unfold execLingerExpiry at h
    split at h
    · obtain rfl := Host.Outcome.next.inj h; exact .refl s
    split at h <;> obtain rfl := Host.Outcome.next.inj h
    · exact .refl s
    · exact (passTo_leads _ s).trans (clockLeads (lingerExpiry_leads _ _))

/-! ### Every command -/

/-- Commands other than the rows, restarts and commanded expiries. -/
def isPlain : Instr → Bool
  | .rowBlock | .streamStart | .fillTimeout _ | .reportTimerExpiry _ | .lingerExpiry _ => false
  | _ => true

theorem exec_correlate_courses (lane : Nat) {s t : State} (h : exec (.correlateCompletion lane) s = .next t) :
    Courses (.correlateCompletion lane) s t := by
  change execCorrelateCompletion lane s = .next t at h
  unfold execCorrelateCompletion at h
  split at h <;> obtain rfl := Host.Outcome.next.inj h
  · exact .inl (.refl s)
  next l hl =>
    have hlane : lane = l := by
      unfold asFin at hl; split at hl <;> simp at hl; rw [← hl]
    subst hlane
    unfold correlateCompletion
    split
    next j hj => exact .inr (.single (.correlate hj))
    · exact .inl (.refl s)

theorem exec_merge_courses (lane : Nat) {s t : State} (h : exec (.mergeCompletion lane) s = .next t) :
    Courses (.mergeCompletion lane) s t := by
  change execMergeCompletion lane s = .next t at h
  unfold execMergeCompletion at h
  split at h <;> obtain rfl := Host.Outcome.next.inj h
  · exact .inl (.refl s)
  next l hl =>
    have hlane : lane = l := by
      unfold asFin at hl; split at hl <;> simp at hl; rw [← hl]
    subst hlane
    unfold mergeCompletion
    split
    next j sc hj => exact .inr (.finish (.merge hj))
    · exact .inl (.refl s)

/-- A plain command is a chain of changes of every event, with or without its own change. -/
theorem exec_courses {c : Instr} (hc : isPlain c = true) {s t : State} (h : exec c s = .next t) : Courses c s t := by
  have hplain : ∀ {u : State} {o : Host.Outcome State Fault Refusal}, o = .next u → Leads Change s u →
      o = .next t → Courses c s t := fun hu hleads ho => by
    obtain rfl := Host.Outcome.next.inj (hu.symm.trans ho)
    exact .inl hleads
  have hserve : ∀ {serve : Frame → State → State} {link : LinkId}, (∀ f u, (link = .record → u.reading = none) →
      Leads Change u (serve f u)) → ∀ kind fits, Host.Outcome.next (request link kind fits serve s) =
        (.next t : Host.Outcome State Fault Refusal) → Courses c s t := fun hs kind fits ho => by
    obtain rfl := Host.Outcome.next.inj ho
    exact request_courses (fun f u hfree => .inl (hs f u hfree)) kind fits s
  have hown : ∀ {serve : Frame → State → State} {link : LinkId}, (∀ f u, (link = .record → u.reading = none) →
      Courses c u (serve f u)) → ∀ kind fits, Host.Outcome.next (request link kind fits serve s) =
        (.next t : Host.Outcome State Fault Refusal) → Courses c s t := fun hs kind fits ho => by
    obtain rfl := Host.Outcome.next.inj ho
    exact request_courses hs kind fits s
  cases c with
  | powerOn => obtain rfl := Host.Outcome.next.inj h; exact .inr (.single (.reset s))
  | frameReceipt link bytes => exact hplain rfl (frameReceipt_leads link bytes s) h
  | linkUp link => exact .inl (.ofLinks (linkUp_linksMove h))
  | linkDown link => exact .inl (.ofLinks (linkDown_linksMove h))
  | messageSend link => exact .inl (.ofLinks (messageSend_linksMove h))
  | rowBlock => simp [isPlain] at hc
  | streamStart => simp [isPlain] at hc
  | unknownKind link => exact .inl (execUnknownKind_leads h)
  | pilotOpen => exact hserve (fun f u _ => servePilotOpen_leads u f) _ _ h
  | pilotPart => exact hserve (fun f u _ => servePilotPart_leads u f) _ _ h
  | pilotClose => exact hserve (fun f u _ => servePilotClose_leads u f) _ _ h
  | pilotQuery => exact hserve (fun f u _ => servePilotQuery_leads u f) _ _ h
  | pilotPurge => exact hserve (fun f u _ => servePilotPurge_leads u f) _ _ h
  | fillTimeout slot => simp [isPlain] at hc
  | commitCompletion slot =>
    change execCommitCompletion slot s = .next t at h
    unfold execCommitCompletion at h
    split at h <;> obtain rfl := Host.Outcome.next.inj h
    · exact .inl (.refl s)
    · exact .inl (commitCompletion_leads _ s)
  | sweepAnnounce => exact hown (fun f u _ => serveSweepAnnounce_courses f u) _ _ h
  | sweepReport => exact hserve (fun f u _ => serveSweepReport_leads f u) _ _ h
  | reportTimerExpiry sweep => simp [isPlain] at hc
  | sweepCancel => exact hserve (fun f u _ => serveSweepCancel_leads f u) _ _ h
  | vpEnd => exact hserve (fun f u _ => serveVpEnd_leads f u) _ _ h
  | lingerExpiry slot => simp [isPlain] at hc
  | grant => exact hplain rfl (grantNext_leads s) h
  | correlateCompletion lane => exact exec_correlate_courses lane h
  | mergeCompletion lane => exact exec_merge_courses lane h
  | setupStream => exact hown (fun f u hfree => serveSetupStream_courses f (hfree rfl)) _ _ h
  | channelSet => exact hown (fun f u hfree => serveChannelSet_courses f (hfree rfl)) _ _ h
  | channelRead => exact hserve (fun f u hfree => serveChannelRead_leads f (hfree rfl)) _ _ h
  | fleetSet => exact hown (fun f u hfree => serveFleetSet_courses f (hfree rfl)) _ _ h
  | fleetRead => exact hserve (fun f u hfree => serveFleetRead_leads f (hfree rfl)) _ _ h
  | stackList => exact hserve (fun f u hfree => .pushReply u .record f _ _ hfree) _ _ h
  | stackStatus => exact hserve (fun f u hfree => serveStackStatus_leads f (hfree rfl)) _ _ h
  | stackSeal => exact hserve (fun f u hfree => serveStackSeal_leads f (hfree rfl)) _ _ h
  | recordRead => exact hown (fun f u hfree => serveRecordRead_courses f (hfree rfl)) _ _ h
  | recordHeader => exact hplain rfl (.ofLinks (handHeader_linksMove s)) h
  | trace => exact hplain rfl (.ofLinks (handTrace_linksMove s)) h
  | stackRelease => exact hown (fun f u hfree => serveStackRelease_courses f (hfree rfl)) _ _ h
  | alertMask => exact hown (fun f u hfree => serveAlertMask_courses f (hfree rfl)) _ _ h
  | alertAck => exact hserve (fun f u hfree => serveAlertAck_leads f (hfree rfl)) _ _ h
  | deviceStatus => exact hserve (fun f u hfree => .pushReply u .record f _ _ hfree) _ _ h
  | capabilityRead => exact hserve (fun f u hfree => .pushReply u .record f _ _ hfree) _ _ h
  | deviceClear => exact hown (fun f u hfree => serveDeviceClear_courses f (hfree rfl)) _ _ h

/-! ### Events: a command or an idle step -/

/-- What an event does: a chain of changes, with time or the stream's where they are due, or a command's own change. -/
inductive EventCourse : Option Instr → State → State → Prop
  | time {c : Option Instr} {s t : State} : Leads ClockChange s t → EventCourse c s t
  | stream {c : Option Instr} {s t : State} : c = some .rowBlock ∨ c = some .streamStart → Leads StreamChange s t →
      EventCourse c s t
  | own {c : Instr} {s t : State} : isPlain c = true → LeadsOver c s t → EventCourse (some c) s t

theorem happens_course {c : Option Instr} {s t : State} (h : happens c s t) : EventCourse c s t := by
  cases c with
  | none =>
    obtain ⟨hpending, hstep⟩ := h
    rw [step_empty hpending] at hstep
    obtain rfl := Host.Outcome.next.inj hstep
    exact .time (idle_leads s)
  | some c =>
    have hexec : exec c s = .next t := h
    by_cases hplain : isPlain c = true
    · exact (exec_courses hplain hexec).elim (fun hleads => .time (clockLeads hleads)) (.own hplain)
    · cases c with
      | rowBlock => exact .stream (.inl rfl) (exec_stream_leads (.inl rfl) hexec)
      | streamStart => exact .stream (.inr rfl) (exec_stream_leads (.inr rfl) hexec)
      | fillTimeout p => exact .time (exec_expiry_leads (.inl ⟨p, rfl⟩) hexec)
      | reportTimerExpiry n => exact .time (exec_expiry_leads (.inr (.inl ⟨n, rfl⟩)) hexec)
      | lingerExpiry k => exact .time (exec_expiry_leads (.inr (.inr ⟨k, rfl⟩)) hexec)
      | _ => exact absurd rfl hplain

/-- A step is an event of the state without the command it takes. -/
theorem step_happens {s t : State} (h : step s = .next t) :
    ∃ (c : Option Instr) (q : List Instr), happens c { s with pending := q } t := by
  cases hpending : s.pending with
  | nil => exact ⟨none, [], rfl, by rw [← h, ← hpending]⟩
  | cons c rest => exact ⟨some c, rest, by unfold step at h; rwa [hpending] at h⟩

end Sys2Proof.Machine

/-! PROOFS. The sweep table: every step keeps its entries coherent (R72, R84) and accounted for (R63, R76). -/

namespace Sys2Proof.Machine

/-! ### What the shared operations do to the table -/

theorem settleSweep_cases (old new : SweepEntry) (ev : Event) : ∃ ev1 : Event,
    ev1.st = ev.st.updateSweep old.number (fun _ => new) ∧ ev1.results = ev.results ∧
      (settleSweep old new ev = ev1 ∨
        new.isRejected = true ∧ settleSweep old new ev = resolve .rejectedQc none new ev1) := by
  refine ⟨(ev.change fun s => s.updateSweep old.number (fun _ => new)).addCauseIf
    (qcFails new.qc new.copy.noReport) .qcFailed, by simp, by simp, ?_⟩
  unfold settleSweep
  dsimp only
  split
  next h => exact .inr ⟨h, rfl⟩
  · exact .inl rfl

theorem mem_updateSweep {s : State} {e new : SweepEntry} (he : e ∈ s.sweeps) :
    new ∈ (s.updateSweep e.number fun _ => new).sweeps := by
  simp only [State.updateSweep, List.mem_map]
  exact ⟨e, he, by simp⟩

theorem resolveMerged_cases (j : Job) (sc : Scratch) (ev : Event) :
    resolveMerged j sc ev = ev ∨ ∃ e, ev.st.findSweep j.sweep = some e ∧
      resolveMerged j sc ev = resolve .merged (some sc.counts) e ev := by
  unfold resolveMerged
  split
  · exact .inl rfl
  next e he => exact .inr ⟨e, he, rfl⟩

@[simp] theorem applyMerge_sweeps (j : Job) (sc : Scratch) (s : State) : (applyMerge j sc s).sweeps = s.sweeps := by
  unfold applyMerge; split <;> rfl

@[simp] theorem applyMerge_sweepCounter (j : Job) (sc : Scratch) (s : State) :
    (applyMerge j sc s).sweepCounter = s.sweepCounter := by
  unfold applyMerge; split <;> rfl

@[simp] theorem applyMerge_source (j : Job) (sc : Scratch) (s : State) : (applyMerge j sc s).source = s.source := by
  unfold applyMerge; split <;> rfl

@[simp] theorem beginMerge_sweeps (l : Fin Config.lanes) (s : State) : (beginMerge l s).sweeps = s.sweeps := by
  unfold beginMerge; split <;> rfl

@[simp] theorem beginMerge_sweepCounter (l : Fin Config.lanes) (s : State) :
    (beginMerge l s).sweepCounter = s.sweepCounter := by
  unfold beginMerge; split <;> rfl

@[simp] theorem beginMerge_source (l : Fin Config.lanes) (s : State) : (beginMerge l s).source = s.source := by
  unfold beginMerge; split <;> rfl

@[simp] theorem passPort_sweeps (k : Fin Config.stackSlots) (s : State) : (passPort k s).sweeps = s.sweeps := by
  unfold passPort; split <;> simp

@[simp] theorem passPort_sweepCounter (k : Fin Config.stackSlots) (s : State) :
    (passPort k s).sweepCounter = s.sweepCounter := by
  unfold passPort; split <;> simp

@[simp] theorem passPort_source (k : Fin Config.stackSlots) (s : State) : (passPort k s).source = s.source := by
  unfold passPort; split <;> simp

@[simp] theorem askPort_sweeps (l : Fin Config.lanes) (j : Job) (sc : Scratch) (s : State) :
    (askPort l j sc s).sweeps = s.sweeps := by
  unfold askPort; dsimp only; split <;> rfl

@[simp] theorem askPort_sweepCounter (l : Fin Config.lanes) (j : Job) (sc : Scratch) (s : State) :
    (askPort l j sc s).sweepCounter = s.sweepCounter := by
  unfold askPort; dsimp only; split <;> rfl

@[simp] theorem askPort_source (l : Fin Config.lanes) (j : Job) (sc : Scratch) (s : State) :
    (askPort l j sc s).source = s.source := by
  unfold askPort; dsimp only; split <;> rfl

@[simp] theorem moveToHarvesting_source (k : Fin Config.stackSlots) (st : Stack) (s : State) :
    (moveToHarvesting k st s).source = s.source := by
  unfold moveToHarvesting; split <;> rfl

@[simp] theorem sealSlot_source (k : Fin Config.stackSlots) (cause : SealCause) (st : Stack) (ev : Event) :
    (sealSlot k cause st ev).st.source = ev.st.source := by
  rw [sealSlot_eq]
  unfold State.sealedAs
  dsimp only
  split <;> rfl

@[simp] theorem sealSlot_results (k : Fin Config.stackSlots) (cause : SealCause) (st : Stack) (ev : Event) :
    (sealSlot k cause st ev).results = ev.results := by
  rw [sealSlot_eq]

theorem sealMoved_cases (fl : Fin Config.fleets) (vp : Word32) (ev : Event) :
    sealMoved fl vp ev = ev ∨ ∃ k st, ev.st.openStack fl = some (k, st) ∧ st.vp ≠ vp ∧
      sealMoved fl vp ev = sealSlot k .fleetMoved st ev := by
  unfold sealMoved
  split
  · exact .inl rfl
  next k st h =>
    split
    · exact .inl rfl
    next hvp => exact .inr ⟨k, st, h, hvp, rfl⟩

@[simp] theorem sealMoved_sweeps (fl : Fin Config.fleets) (vp : Word32) (ev : Event) :
    (sealMoved fl vp ev).st.sweeps = ev.st.sweeps := by
  rcases sealMoved_cases fl vp ev with h | ⟨k, st, -, -, h⟩ <;> rw [h]; exact sealSlot_sweeps _ _ _ _

@[simp] theorem sealMoved_sweepCounter (fl : Fin Config.fleets) (vp : Word32) (ev : Event) :
    (sealMoved fl vp ev).st.sweepCounter = ev.st.sweepCounter := by
  rcases sealMoved_cases fl vp ev with h | ⟨k, st, -, -, h⟩ <;> rw [h]; exact sealSlot_sweepCounter _ _ _ _

@[simp] theorem sealMoved_source (fl : Fin Config.fleets) (vp : Word32) (ev : Event) :
    (sealMoved fl vp ev).st.source = ev.st.source := by
  rcases sealMoved_cases fl vp ev with h | ⟨k, st, -, -, h⟩ <;> rw [h]; exact sealSlot_source _ _ _ _

@[simp] theorem sealMoved_results (fl : Fin Config.fleets) (vp : Word32) (ev : Event) :
    (sealMoved fl vp ev).results = ev.results := by
  rcases sealMoved_cases fl vp ev with h | ⟨k, st, -, -, h⟩ <;> rw [h]; exact sealSlot_results _ _ _ _

section MoveFields

variable {s t : State}

theorem State.LinksMove.ingest (h : s.LinksMove t) : t.ingest = s.ingest := by rw [h.frame]
theorem State.LinksMove.ring (h : s.LinksMove t) : t.ring = s.ring := by rw [h.frame]
theorem State.LinksMove.monitor (h : s.LinksMove t) : t.monitor = s.monitor := by rw [h.frame]
theorem State.LinksMove.pilots (h : s.LinksMove t) : t.pilots = s.pilots := by rw [h.frame]
theorem State.LinksMove.fleets (h : s.LinksMove t) : t.fleets = s.fleets := by rw [h.frame]
theorem State.LinksMove.sweeps (h : s.LinksMove t) : t.sweeps = s.sweeps := by rw [h.frame]
theorem State.LinksMove.sweepCounter (h : s.LinksMove t) : t.sweepCounter = s.sweepCounter := by rw [h.frame]
theorem State.LinksMove.lanes (h : s.LinksMove t) : t.lanes = s.lanes := by rw [h.frame]
theorem State.LinksMove.slots (h : s.LinksMove t) : t.slots = s.slots := by rw [h.frame]
theorem State.LinksMove.ports (h : s.LinksMove t) : t.ports = s.ports := by rw [h.frame]
theorem State.LinksMove.harvestQueue (h : s.LinksMove t) : t.harvestQueue = s.harvestQueue := by rw [h.frame]
theorem State.LinksMove.clock (h : s.LinksMove t) : t.clock = s.clock := by rw [h.frame]
theorem State.LinksMove.pending (h : s.LinksMove t) : t.pending = s.pending := by rw [h.frame]

theorem State.StreamMove.pilots (h : s.StreamMove t) : t.pilots = s.pilots := by rw [h.frame]
theorem State.StreamMove.fleets (h : s.StreamMove t) : t.fleets = s.fleets := by rw [h.frame]
theorem State.StreamMove.sweeps (h : s.StreamMove t) : t.sweeps = s.sweeps := by rw [h.frame]
theorem State.StreamMove.sweepCounter (h : s.StreamMove t) : t.sweepCounter = s.sweepCounter := by rw [h.frame]
theorem State.StreamMove.lanes (h : s.StreamMove t) : t.lanes = s.lanes := by rw [h.frame]
theorem State.StreamMove.slots (h : s.StreamMove t) : t.slots = s.slots := by rw [h.frame]
theorem State.StreamMove.ports (h : s.StreamMove t) : t.ports = s.ports := by rw [h.frame]
theorem State.StreamMove.harvestQueue (h : s.StreamMove t) : t.harvestQueue = s.harvestQueue := by rw [h.frame]
theorem State.StreamMove.reading (h : s.StreamMove t) : t.reading = s.reading := by rw [h.frame]
theorem State.StreamMove.alerts (h : s.StreamMove t) : t.alerts = s.alerts := by rw [h.frame]
theorem State.StreamMove.spread (h : s.StreamMove t) : t.spread = s.spread := by rw [h.frame]
theorem State.StreamMove.source (h : s.StreamMove t) : t.source = s.source := by rw [h.frame]
theorem State.StreamMove.record (h : s.StreamMove t) : t.record = s.record := by rw [h.frame]
theorem State.StreamMove.heldAlerts (h : s.StreamMove t) : t.heldAlerts = s.heldAlerts := by rw [h.frame]
theorem State.StreamMove.clock (h : s.StreamMove t) : t.clock = s.clock := by rw [h.frame]
theorem State.StreamMove.pending (h : s.StreamMove t) : t.pending = s.pending := by rw [h.frame]

end MoveFields

/-! ### A property of steps from its changes -/

/-- A property of events that no change, no passing of time, no stream change and no command's own change takes away,
and that does not see the queue of commands, is kept by every step. -/
theorem step_keeps {P : Event → Prop}
    (hqueue : ∀ (s : State) (q : List Instr), P (Event.start s) → P (Event.start { s with pending := q }))
    (hchange : ∀ a b, Change a b → P a → P b) (hclock : ∀ a b, ClockChange a b → P a → P b)
    (hstream : ∀ a b, StreamChange a b → P a → P b)
    (hsingle : ∀ c s ev, Single c s ev → P (Event.start s) → P ev) {s t : State} (hs : P (Event.start s))
    (hstep : step s = .next t) : P (Event.start t) := by
  obtain ⟨c, q, hhappens⟩ := step_happens hstep
  have hq := hqueue s q hs
  cases happens_course hhappens with
  | time h => exact h.keeps hclock hq
  | stream _ h => exact h.keeps hstream hq
  | own _ h =>
    obtain ⟨u, ev, hu, hown, hchain⟩ := h
    have hev : P ev := hsingle _ _ _ hown (hchange _ _ (.links hu) hq)
    clear hown
    generalize Event.start t = last at hchain ⊢
    induction hchain with
    | refl => exact hev
    | tail _ hlast ih => exact hchange _ _ hlast ih

/-! ### Coherent entries (R72, R84) -/

theorem SweepInv.of_sweeps {s t : State} (h : SweepInv s) (hsweeps : t.sweeps = s.sweeps) : SweepInv t := by
  unfold SweepInv at *
  rwa [hsweeps]

theorem SweepInv.of_subset {s t : State} (h : SweepInv s) (hsweeps : ∀ e ∈ t.sweeps, e ∈ s.sweeps) : SweepInv t :=
  fun e he => h e (hsweeps e he)

/-- A table each of whose entries is an old one changed in a coherent way. -/
theorem SweepInv.of_map {s t : State} (h : SweepInv s) {f : SweepEntry → SweepEntry}
    (hsweeps : t.sweeps = s.sweeps.map f) (hf : ∀ e ∈ s.sweeps, e.ok → (f e).ok) : SweepInv t := by
  unfold SweepInv
  rw [hsweeps]
  exact List.forall_mem_map.2 fun e he => hf e he (h e he)

theorem SweepInv.resolve {ev : Event} (h : SweepInv ev.st) (out : SweepOutcome) (counts : Option JobCounts)
    (e : SweepEntry) : SweepInv (resolve out counts e ev).st := by
  refine h.of_subset ?_
  rw [resolve_sweeps]
  exact fun _ => removeFirst_mem

theorem SweepEntry.settle_ok {e : SweepEntry} (h : e.ok) {qc : QcOutcome} {fails : FailSet}
    (hpending : e.qc = .pending ∨ e.timer ≠ none) (hqc : qc ≠ .pending) (hfails : fails.isEmpty = false ↔ qc = .fail) :
    (e.settle qc fails).ok := by
  obtain ⟨htimer, hready, -, -⟩ := h
  have hunsettled : e.qc = .pending := hpending.elim id fun ht =>
    (htimer.1 (Option.isSome_iff_ne_none.2 ht)).2
  have hnotReady : e.stage ≠ .ready := fun hr => by
    have := (hready hr).2
    simp [SweepEntry.proceeds, hunsettled, qcProceeds] at this
  unfold SweepEntry.settle SweepEntry.ok
  dsimp only
  refine ⟨by simp [hqc], fun hstage => ?_, fun hstage => ?_, hfails⟩
  · split at hstage
    next hall => simp only [Bool.and_eq_true] at hall; exact hall.1
    · exact (hnotReady hstage).elim
  · split at hstage
    · simp at hstage
    next hall =>
      rintro ⟨hcomplete, hproceeds⟩
      exact hall (by simp only [Bool.and_eq_true, decide_eq_true_eq]; exact ⟨⟨hcomplete, hproceeds⟩, hstage⟩)

/-- An entry at CORRELATING or MERGING is coherent whatever its outcome. -/
theorem SweepEntry.ok.withStage {e : SweepEntry} (h : e.ok) {stage : Stage} (hready : stage ≠ .ready)
    (hwaiting : stage ≠ .waiting) : ({ e with stage := stage } : SweepEntry).ok :=
  ⟨h.1, fun hr => (hready hr).elim, fun hw => (hwaiting hw).elim, h.2.2.2⟩

theorem SweepEntry.arrive_ok {e : SweepEntry} (h : e.ok) (s : State) (n : Ssn) : (e.arrive s n).ok := by
  unfold SweepEntry.arrive
  split
  next hrow =>
    obtain ⟨htimer, hready, hwaiting, hfails⟩ := h
    have hnotReady : e.stage ≠ .ready := fun hr => by have := (hready hr).1; simp [hrow.2] at this
    have hnoTimer : e.timer = none := by
      by_contra ht
      have := (htimer.1 (Option.isSome_iff_ne_none.2 ht)).1
      simp [hrow.2] at this
    unfold SweepEntry.ok
    dsimp only
    refine ⟨?_, fun hstage => ?_, fun hstage => ?_, hfails⟩
    · split <;> simp_all
    · split at hstage
      next hall => simp only [Bool.and_eq_true] at hall; exact ⟨rfl, hall.1⟩
      · exact (hnotReady hstage).elim
    · split at hstage
      · simp at hstage
      next hall =>
        rintro ⟨-, hproceeds⟩
        exact hall (by simp only [Bool.and_eq_true, decide_eq_true_eq]; exact ⟨hproceeds, hstage⟩)
  · exact h

theorem newEntry_ok (s : State) (fl : Fin Config.fleets) (vp : Word32) (k : Fin Config.stackSlots)
    (p : Fin Config.pilots) (t0 : Ssn) (n energy : Nat) : (newEntry s fl vp k p t0 n energy).ok := by
  unfold newEntry SweepEntry.ok
  dsimp only
  refine ⟨by split <;> simp_all, nofun, fun _ => ?_, by simp [FailSet.isEmpty]⟩
  simp [SweepEntry.proceeds, qcProceeds]

/-- A new coherent entry at the newest end. -/
theorem SweepInv.add {s t : State} (h : SweepInv s) {e : SweepEntry} (he : e.ok)
    (hsweeps : t.sweeps = s.sweeps ++ [e]) : SweepInv t := by
  intro x hx
  rw [hsweeps, List.mem_append, List.mem_singleton] at hx
  exact hx.elim (h x) fun hxe => hxe ▸ he

theorem Change.keeps_sweepInv {a b : Event} (h : Change a b) (ha : SweepInv a.st) : SweepInv b.st := by
  cases h with
  | cause => exact ha
  | flush => exact ha.of_sweeps (by simp)
  | links h => exact ha.of_sweeps h.sweeps
  | pilots => exact ha.of_sweeps rfl
  | latches => exact ha.of_sweeps rfl
  | settle he hpending hqc hfails =>
    rename_i e qc fails
    obtain ⟨ev1, hst, -, h⟩ := settleSweep_cases e (e.settle qc fails) a
    have hupdated : SweepInv ev1.st := by
      rw [hst]
      refine ha.of_map rfl fun x _ hx => ?_
      split
      · exact SweepEntry.settle_ok (ha e he) hpending hqc hfails
      · exact hx
    rcases h with h | ⟨-, h⟩ <;> rw [h]
    · exact hupdated
    · exact hupdated.resolve _ _ _
  | resolve => exact ha.resolve _ _ _
  | sealed => exact ha.of_sweeps (by simp)
  | linger => exact ha.of_sweeps rfl
  | grant =>
    refine ha.of_map rfl fun x _ hx => ?_
    split
    · exact hx.withStage nofun nofun
    · exact hx

theorem Single.keeps_sweepInv {c : Instr} {s : State} {ev : Event} (h : Single c s ev) (hs : SweepInv s) :
    SweepInv ev.st := by
  cases h with
  | reset => exact fun e he => by simp [State.reset] at he
  | @join _ fl vp p t0 n _ _ energy k => exact hs.add (newEntry_ok s fl vp k p t0 n energy) (by simp)
  | @fresh _ fl vp p t0 n _ _ energy k => exact hs.add (newEntry_ok s fl vp k p t0 n energy) (by simp)
  | correlate =>
    refine hs.of_map (f := fun x => if x.number = _ then { x with stage := .merging _ } else x)
      (by simp only [Event.start_st, askPort_sweeps]; rfl) fun x _ hx => ?_
    split
    · exact hx.withStage nofun nofun
    · exact hx
  | merge =>
    rename_i l j sc _
    have happlied : SweepInv (Event.start (applyMerge j sc s)).st := hs.of_sweeps (by simp)
    refine SweepInv.of_sweeps (s := (resolveMerged j sc (Event.start (applyMerge j sc s))).st) ?_ (by simp)
    rcases resolveMerged_cases j sc (Event.start (applyMerge j sc s)) with h | ⟨e, -, h⟩ <;> rw [h]
    · exact happlied
    · exact happlied.resolve _ _ _
  | setup => exact hs.of_sweeps rfl
  | channelSet => exact hs.of_sweeps rfl
  | fleetSet => exact hs.of_sweeps rfl
  | mask => exact hs.of_sweeps rfl
  | release => exact hs.of_sweeps rfl
  | read => exact hs.of_sweeps (by simp)
  | clear => exact fun e he => by simp [clearEvent, clearBlocks] at he

theorem ClockChange.keeps_sweepInv {a b : Event} (h : ClockChange a b) (ha : SweepInv a.st) : SweepInv b.st := by
  cases h with
  | change h => exact h.keeps_sweepInv ha
  | clock => exact ha.of_sweeps rfl

theorem StreamChange.keeps_sweepInv {a b : Event} (h : StreamChange a b) (ha : SweepInv a.st) : SweepInv b.st := by
  cases h with
  | change h => exact h.keeps_sweepInv ha
  | stream h => exact ha.of_sweeps h.sweeps
  | arrive n => exact ha.of_map rfl fun x _ hx => SweepEntry.arrive_ok hx _ _
  | slip => exact ha.of_sweeps rfl

/-- Settles O8: every change keeps the entries coherent. -/
theorem sweepEntriesStayCoherent : Obligations.SweepEntriesStayCoherent := fun _ _ hs hstep =>
  step_keeps (P := fun ev => SweepInv ev.st) (fun _ _ h => h.of_sweeps rfl) (fun _ _ h => h.keeps_sweepInv)
    (fun _ _ h => h.keeps_sweepInv) (fun _ _ h => h.keeps_sweepInv) (fun _ _ _ h => h.keeps_sweepInv) hs hstep

/-! ### Accepted, produced and held (R63, R76, R170) -/

/-- The account of the sweep table in the middle of an event: its SWEEP RESULTs are still to be produced. -/
def Event.Accounted (ev : Event) : Prop :=
  ev.st.sweeps.length ≤ Config.sweepEntries ∧
    ev.st.source.sequence + BitVec.ofNat 8 ev.results.length =
      (ev.st.sweepCounter - BitVec.ofNat 32 ev.st.sweeps.length).setWidth 8

theorem accounted_start_iff (s : State) : (Event.start s).Accounted ↔ AccountInv s := by
  simp [Event.Accounted, AccountInv]

theorem Event.Accounted.of_same {a b : Event} (h : a.Accounted) (hlength : b.st.sweeps.length = a.st.sweeps.length)
    (hcounter : b.st.sweepCounter = a.st.sweepCounter) (hsequence : b.st.source.sequence = a.st.source.sequence)
    (hresults : b.results.length = a.results.length) : b.Accounted := by
  unfold Event.Accounted at *
  rwa [hlength, hcounter, hsequence, hresults]

theorem Event.finish_sequence (ev : Event) :
    ev.finish.source.sequence = ev.st.source.sequence + BitVec.ofNat 8 ev.results.length := by
  unfold Event.finish
  rw [State.raise_source, sendResults_eq]

/-- Modulo 256, one entry less in the table is one more SWEEP RESULT. -/
theorem account_resolved {n m : Nat} (sequence : BitVec 8) (counter : Word32) (results : Nat) (h : m + 1 = n)
    (ha : sequence + BitVec.ofNat 8 results = (counter - BitVec.ofNat 32 n).setWidth 8) :
    sequence + BitVec.ofNat 8 (results + 1) = (counter - BitVec.ofNat 32 m).setWidth 8 := by
  subst h
  have hsub : counter - BitVec.ofNat 32 m = counter - BitVec.ofNat 32 (m + 1) + 1 := by
    rw [BitVec.ofNat_add]
    generalize BitVec.ofNat 32 m = x
    bv_omega
  rw [hsub, BitVec.setWidth_add _ _ (by omega), ← ha, BitVec.ofNat_add]
  simp [BitVec.add_assoc]

theorem Event.Accounted.resolve {ev : Event} (h : ev.Accounted) {out : SweepOutcome} {counts : Option JobCounts}
    {e : SweepEntry} (he : e ∈ ev.st.sweeps) : (resolve out counts e ev).Accounted := by
  have haside := resolve_aside out counts e ev
  have hlength := removeFirst_length (p := fun x => decide (x.number = e.number)) ⟨e, he, by simp⟩
  unfold Event.Accounted at *
  rw [resolve_sweeps, resolve_results, haside.sweepCounter, haside.source]
  refine ⟨by have := h.1; omega, ?_⟩
  rw [List.length_append, List.length_singleton]
  exact account_resolved _ _ _ hlength h.2

theorem Change.keeps_accounted {a b : Event} (h : Change a b) (ha : a.Accounted) : b.Accounted := by
  cases h with
  | cause => exact ha
  | flush => exact ⟨by simpa using ha.1, by simpa [Event.finish_sequence] using ha.2⟩
  | links h =>
    exact ha.of_same (by rw [Event.change_st, h.sweeps]) (by rw [Event.change_st, h.sweepCounter])
      (by rw [Event.change_st, h.sequence]) rfl
  | pilots => exact ha.of_same rfl rfl rfl rfl
  | latches => exact ha.of_same rfl rfl rfl rfl
  | settle he =>
    rename_i e qc fails _ _ _
    obtain ⟨ev1, hst, hresults, h⟩ := settleSweep_cases e (e.settle qc fails) a
    have hupdated : ev1.Accounted := ha.of_same (by rw [hst]; simp [State.updateSweep]) (by rw [hst]; rfl) (by rw [hst]; rfl)
      (by rw [hresults])
    rcases h with h | ⟨-, h⟩ <;> rw [h]
    · exact hupdated
    · exact hupdated.resolve (by rw [hst]; exact mem_updateSweep he)
  | resolve _ _ he => exact ha.resolve he
  | sealed => exact ha.of_same (by simp) (by simp) (by simp) (by simp)
  | linger => exact ha.of_same rfl rfl rfl rfl
  | grant => exact ha.of_same (by simp [grantTo, State.updateSweep]) rfl rfl rfl

/-- An accepted sweep: one entry and one number more. -/
theorem Event.Accounted.add {a b : Event} (h : a.Accounted) (htable : a.st.sweeps.length < 32) {e : SweepEntry}
    (hsweeps : b.st.sweeps = a.st.sweeps ++ [e]) (hcounter : b.st.sweepCounter = a.st.sweepCounter + 1)
    (hsequence : b.st.source.sequence = a.st.source.sequence) (hresults : b.results = a.results) : b.Accounted := by
  unfold Event.Accounted at *
  rw [hsweeps, hcounter, hsequence, hresults, h.2]
  refine ⟨by simp [Config.sweepEntries]; omega, ?_⟩
  rw [List.length_append, List.length_singleton, BitVec.ofNat_add]
  congr 1
  generalize BitVec.ofNat 32 a.st.sweeps.length = x
  bv_omega

theorem Single.keeps_accounted {c : Instr} {s : State} {ev : Event} (h : Single c s ev)
    (hs : (Event.start s).Accounted) : ev.Accounted := by
  cases h with
  | reset => exact ⟨by simp [State.reset], by simp [State.reset, PartnerLink.reset]⟩
  | @join _ fl vp p t0 n _ _ energy k _ _ _ htable =>
    exact hs.add htable (e := newEntry s fl vp k p t0 n energy) (by simp) (by simp) (by simp [addSweep]) rfl
  | @fresh _ fl vp p t0 n _ _ energy k _ _ htable =>
    exact hs.add htable (e := newEntry s fl vp k p t0 n energy) (by simp) (by simp) (by simp [addSweep]) (by simp)
  | correlate => exact hs.of_same (by simp [State.updateSweep]) (by simp) (by simp) rfl
  | merge =>
    rename_i l j sc _
    have happlied : (Event.start (applyMerge j sc s)).Accounted := hs.of_same (by simp) (by simp) (by simp) rfl
    refine Event.Accounted.of_same (a := resolveMerged j sc (Event.start (applyMerge j sc s))) ?_ (by simp) (by simp)
      (by simp) rfl
    rcases resolveMerged_cases j sc (Event.start (applyMerge j sc s)) with h | ⟨e, he, h⟩ <;> rw [h]
    · exact happlied
    · exact happlied.resolve (findSweep_mem he)
  | setup => exact hs.of_same rfl rfl rfl rfl
  | channelSet => exact hs.of_same rfl rfl rfl rfl
  | fleetSet => exact hs.of_same rfl rfl rfl rfl
  | mask => exact hs.of_same rfl rfl rfl rfl
  | release => exact hs.of_same rfl rfl rfl rfl
  | read => exact hs.of_same (by simp) (by simp) (by simp) rfl
  | clear =>
    obtain ⟨haside, hresults, -⟩ := resolveAll_spec (fun _ => true) .droppedClear (Event.start s)
    have hcount : (clearEvent s).results.length = s.sweeps.length := by
      unfold clearEvent
      rw [Event.change_results, hresults]
      simp
    have hsequence : (clearEvent s).st.source.sequence = s.source.sequence := by
      unfold clearEvent clearBlocks
      rw [Event.change_st, haside.source, Event.start_st]
    have hcounter : (clearEvent s).st.sweepCounter = s.sweepCounter := by
      unfold clearEvent clearBlocks
      rw [Event.change_st, haside.sweepCounter, Event.start_st]
    have hempty : (clearEvent s).st.sweeps = [] := rfl
    have hnone : s.source.sequence = (s.sweepCounter - BitVec.ofNat 32 s.sweeps.length).setWidth 8 := by
      simpa using hs.2
    unfold Event.Accounted
    rw [hempty, hsequence, hcounter, hcount, hnone]
    refine ⟨by simp, ?_⟩
    rw [BitVec.sub_eq_add_neg, BitVec.setWidth_add _ _ (by omega)]
    apply BitVec.eq_of_toNat_eq
    simp

/-- Settles O9: every change keeps the account, results still to be produced included. -/
theorem everyAcceptedSweepIsAccountedFor : Obligations.EveryAcceptedSweepIsAccountedFor := by
  intro s t hs hstep
  rw [← accounted_start_iff] at *
  have hchange : ∀ a b, Change a b → a.Accounted → b.Accounted := fun _ _ h => h.keeps_accounted
  refine step_keeps (fun s q h => h.of_same rfl rfl rfl rfl) hchange (fun a b h ha => ?_)
    (fun a b h ha => ?_) (fun c s ev h => h.keeps_accounted) hs hstep
  · cases h with
    | change h => exact hchange _ _ h ha
    | clock => exact ha.of_same rfl rfl rfl rfl
  · cases h with
    | change h => exact hchange _ _ h ha
    | stream h =>
      exact ha.of_same (by rw [Event.change_st, h.sweeps]) (by rw [Event.change_st, h.sweepCounter])
        (by rw [Event.change_st, h.source]) rfl
    | arrive n => exact ha.of_same (by simp) rfl rfl rfl
    | slip => exact ha.of_same rfl rfl rfl rfl

end Sys2Proof.Machine

/-! PROOFS. The bounds of the links (R4, R149, R150, R165, R171, R173) over every step. -/

namespace Sys2Proof.Machine

/-- What `step_keeps` says, for one command and its own change: that change comes behind a move of the links. -/
theorem happens_keeps {P : Event → Prop} {c : Option Instr} {s t : State}
    (hchange : ∀ a b, Change a b → P a → P b) (hclock : ∀ a b, ClockChange a b → P a → P b)
    (hstream : ∀ a b, StreamChange a b → P a → P b)
    (hsingle : ∀ i u ev, c = some i → s.LinksMove u → Single i u ev → P (Event.start u) → P ev)
    (hs : P (Event.start s)) (h : happens c s t) : P (Event.start t) := by
  cases happens_course h with
  | time h => exact h.keeps hclock hs
  | stream _ h => exact h.keeps hstream hs
  | own _ h =>
    obtain ⟨u, ev, hu, hown, hchain⟩ := h
    have hev : P ev := hsingle _ _ _ rfl hu hown (hchange _ _ (.links hu) hs)
    clear hown
    generalize Event.start t = last at hchain ⊢
    induction hchain with
    | refl => exact hev
    | tail _ hlast ih => exact hchange _ _ hlast ih

theorem State.SameAside.links {s t : State} (h : s.SameAside t) (hs : LinkInv s) : LinkInv t :=
  hs.of_same h.spread h.source h.record h.reading h.heldAlerts

theorem sealSlot_links {k : Fin Config.stackSlots} {cause : SealCause} {st : Stack} {ev : Event} (h : LinkInv ev.st) :
    LinkInv (sealSlot k cause st ev).st := by
  rw [sealSlot_eq]
  refine h.of_same ?_ ?_ ?_ ?_ ?_ <;> (unfold State.sealedAs; dsimp only; split <;> rfl)

theorem Change.keeps_linkInv {a b : Event} (h : Change a b) (ha : LinkInv a.st) : LinkInv b.st := by
  cases h with
  | cause => exact ha
  | flush => exact ha.finish
  | links h => exact h.links ha
  | pilots => exact ha.of_same rfl rfl rfl rfl rfl
  | latches => exact ha.of_same rfl rfl rfl rfl rfl
  | settle =>
    rename_i e qc fails _ _ _ _
    obtain ⟨ev1, hst, -, h⟩ := settleSweep_cases e (e.settle qc fails) a
    have hupdated : LinkInv ev1.st := by rw [hst]; exact ha.of_same rfl rfl rfl rfl rfl
    rcases h with h | ⟨-, h⟩ <;> rw [h]
    · exact hupdated
    · exact (resolve_aside _ _ _ _).links hupdated
  | resolve => exact (resolve_aside _ _ _ _).links ha
  | sealed => exact sealSlot_links ha
  | linger => exact ha.of_same rfl rfl rfl rfl rfl
  | grant => exact ha.of_same rfl rfl rfl rfl rfl

theorem applyMerge_links {j : Job} {sc : Scratch} {s : State} (h : LinkInv s) : LinkInv (applyMerge j sc s) := by
  unfold applyMerge
  split
  · exact h
  · exact h.of_same rfl rfl rfl rfl rfl

theorem passPort_links {k : Fin Config.stackSlots} {s : State} (h : LinkInv s) : LinkInv (passPort k s) := by
  unfold passPort
  split
  · exact h.of_same rfl rfl rfl rfl rfl
  · unfold beginMerge
    split <;> exact h.of_same rfl rfl rfl rfl rfl

theorem linkInv_reset (queue : List Instr) (free : Nat) :
    LinkInv { State.reset with pending := queue, freeCount := free } :=
  ⟨by simp [State.reset, SpreadLink.reset], by simp [State.reset, PartnerLink.reset],
    by simp [State.reset, PartnerLink.reset], by simp [State.reset, SpreadLink.reset],
    by simp [State.reset, PartnerLink.reset], by simp [State.reset, PartnerLink.reset], by simp [State.reset],
    by simp [State.reset]⟩

theorem Single.keeps_linkInv {c : Instr} {s : State} {ev : Event} (hread : c ≠ .recordRead) (h : Single c s ev)
    (hs : LinkInv s) : LinkInv ev.st := by
  cases h with
  | reset => exact linkInv_reset _ _
  | join => exact hs.of_same rfl rfl rfl rfl rfl
  | @fresh _ fl vp =>
    have hmoved : LinkInv (sealMoved fl vp (Event.start s)).st := by
      rcases sealMoved_cases fl vp (Event.start s) with h | ⟨k, st, -, -, h⟩ <;> rw [h]
      · exact hs
      · exact sealSlot_links hs
    generalize sealMoved fl vp (Event.start s) = ev at hmoved ⊢
    exact hmoved.of_same rfl rfl rfl rfl rfl
  | correlate =>
    unfold askPort
    dsimp only
    split <;> exact hs.of_same rfl rfl rfl rfl rfl
  | @merge _ l j sc =>
    have happlied : LinkInv (Event.start (applyMerge j sc s)).st := applyMerge_links hs
    have hresolved : LinkInv (resolveMerged j sc (Event.start (applyMerge j sc s))).st := by
      rcases resolveMerged_cases j sc (Event.start (applyMerge j sc s)) with h | ⟨e, -, h⟩ <;> rw [h]
      · exact happlied
      · exact (resolve_aside _ _ _ _).links happlied
    generalize resolveMerged j sc (Event.start (applyMerge j sc s)) = ev at hresolved ⊢
    exact passPort_links (hresolved.of_same rfl rfl rfl rfl rfl)
  | setup => exact hs.of_same rfl rfl rfl rfl rfl
  | channelSet => exact hs.of_same rfl rfl rfl rfl rfl
  | fleetSet => exact hs.of_same rfl rfl rfl rfl rfl
  | mask => exact hs.of_same rfl rfl rfl rfl rfl
  | release => exact hs.of_same rfl rfl rfl rfl rfl
  | read => exact (hread rfl).elim
  | clear hnone =>
    have hresolved := (resolveAll_spec (fun _ => true) .droppedClear (Event.start s)).1
    refine (hresolved.links hs).of_same rfl rfl rfl ?_ rfl
    exact (hresolved.reading.trans hnone).symm

/-- A request that is taken comes from a link that is up, where the links are within their bounds (R173). -/
theorem takeRequest_record_up {s u : State} {f : Frame} (h : s.takeRequest .record = some (f, u)) (hs : LinkInv s) :
    u.record.up = true := by
  unfold State.takeRequest at h
  dsimp only at h
  split at h
  · simp at h
  · simp at h
  next hin =>
    obtain ⟨-, rfl⟩ := Prod.mk.inj (Option.some.inj h)
    obtain ⟨-, -, -, -, -, hrecordDown, -, -⟩ := hs
    by_contra hdown
    have := (hrecordDown (by simpa using hdown)).1
    simp [hin] at this

theorem acceptRead_links {f : Frame} {k : Fin Config.stackSlots} {st : Stack} {first count shift : Nat} {mode : ReadMode}
    {width : SampleWidth} {s : State} (hs : LinkInv s) (hup : s.record.up = true) (hfree : s.reading = none) :
    LinkInv (acceptRead f k st first count mode shift width s) := by
  unfold acceptRead
  dsimp only
  rw [moveToHarvesting_pushReply]
  have hpushed := hs.pushReply .record f .done
    (readFields k st (effectiveCount st.channels first count) (moveToHarvesting k st s).slots[k]) fun _ => hfree
  generalize hv : s.pushReply .record f .done _ = v at hpushed ⊢
  have hvup : v.record.up = true := by
    rw [← hv]
    simp only [State.pushReply, PartnerLink.push]
    split <;> exact hup
  have hvread : v.reading = none := by rw [← hv]; simpa using hfree
  have hmoved : LinkInv (moveToHarvesting k st v) ∧ (moveToHarvesting k st v).record = v.record ∧
      (moveToHarvesting k st v).reading = v.reading := by
    unfold moveToHarvesting
    split
    · exact ⟨hpushed.of_same rfl rfl rfl rfl rfl, rfl, rfl⟩
    · exact ⟨hpushed, rfl, rfl⟩
  obtain ⟨⟨hspread, hsource, hrecord, hspreadDown, hsourceDown, -, -, -⟩, hrecordSame, -⟩ := hmoved
  refine ⟨hspread, hsource, hrecord, hspreadDown, hsourceDown, ?_, by simp, ?_⟩
  · intro hdown
    dsimp only at hdown
    rw [hrecordSame, hvup] at hdown
    simp at hdown
  · rintro r ⟨rfl⟩
    exact ⟨by simp, by simp, by simp⟩

theorem exec_recordRead_links {s t : State} (hs : LinkInv s) (h : exec .recordRead s = .next t) : LinkInv t := by
  change Host.Outcome.next (request .record 40 (fixedLength 7) serveRecordRead s) = .next t at h
  obtain rfl := Host.Outcome.next.inj h
  rcases request_cases .record 40 (fixedLength 7) serveRecordRead s with hr | ⟨f, u, htake, -, hr | ⟨-, hr⟩⟩ <;> rw [hr]
  · exact hs
  · exact ((State.LinksMove.takeRequest htake).links hs).pushReply _ _ _ _ (takeRequest_reading htake)
  · have hu := (State.LinksMove.takeRequest htake).links hs
    have hfree := takeRequest_reading htake
    unfold serveRecordRead
    dsimp only
    split
    · split
      · exact hu.pushReply _ _ _ _ hfree
      split
      · exact hu.pushReply _ _ _ _ hfree
      split
      · exact acceptRead_links hu (takeRequest_record_up htake hs) (hfree rfl)
      · exact hu.pushReply _ _ _ _ hfree
    · exact hu.pushReply _ _ _ _ hfree

/-- Settles O7: every change keeps the bounds; a RECORD READ, whose request shows the link up, sets the read in hand. -/
theorem linksStayBounded : Obligations.LinksStayBounded := by
  intro s t hs hstep
  obtain ⟨c, q, h⟩ := step_happens hstep
  have hq : LinkInv { s with pending := q } := hs.of_same rfl rfl rfl rfl rfl
  by_cases hread : c = some .recordRead
  · subst hread
    exact exec_recordRead_links hq h
  have hchange : ∀ a b, Change a b → LinkInv a.st → LinkInv b.st := fun _ _ h => h.keeps_linkInv
  refine happens_keeps (P := fun ev => LinkInv ev.st) hchange (fun a b h ha => ?_) (fun a b h ha => ?_)
    (fun i u ev hi _ h => h.keeps_linkInv fun hir => hread (hir ▸ hi)) hq h
  · cases h with
    | change h => exact hchange _ _ h ha
    | clock => exact ha.of_same rfl rfl rfl rfl rfl
  · cases h with
    | change h => exact hchange _ _ h ha
    | stream h => exact ha.of_same h.spread h.source h.record h.reading h.heldAlerts
    | arrive => exact ha.of_same rfl rfl rfl rfl rfl
    | slip => exact ha.of_same rfl rfl rfl rfl rfl

end Sys2Proof.Machine

/-! PROOFS. Open slots, the harvest queue and the read in hand (R59, R138, R139, R146) over every step. -/

namespace Sys2Proof.Machine

/-! ### The invariant by its rules -/

/-- `StackInv` with a name for each of its rules. -/
structure StackRules (s : State) : Prop where
  ofFleet : ∀ (fl : Fin Config.fleets) (k : Fin Config.stackSlots), (s.fleets[fl]).openSlot = some k →
    ∃ st, s.slots[k] = some st ∧ st.isJoinable = true ∧ st.fleet = fl
  ofSlot : ∀ (k : Fin Config.stackSlots) (st : Stack) (fl : Fin Config.fleets), s.slots[k] = some st →
    st.isJoinable = true → st.fleet = fl → (s.fleets[fl]).openSlot = some k
  nodup : s.harvestQueue.Nodup
  queue : ∀ k : Fin Config.stackSlots, k ∈ s.harvestQueue ↔ isSealedSlot s.slots[k] = true
  reading : ∀ (r : ReadInHand) (k : Fin Config.stackSlots), s.reading = some r → r.slot = k →
    isHarvestingSlot s.slots[k] = true

theorem stackInv_iff (s : State) : StackInv s ↔ StackRules s := by
  constructor
  · rintro ⟨hfleet, hslot, hnodup, hqueue, hreading⟩
    refine ⟨fun fl k hk => ?_, fun k st fl hst hjoin hfl => ?_, hnodup, hqueue, fun r k hr hk => ?_⟩
    · have h := hfleet fl k hk
      cases hst : s.slots[k] with
      | none => rw [hst] at h; exact h.elim
      | some st => rw [hst] at h; exact ⟨st, rfl, h⟩
    · have h := hslot k
      rw [hst] at h
      subst hfl
      exact h hjoin
    · subst hk
      rw [hr] at hreading
      exact hreading
  · rintro ⟨hfleet, hslot, hnodup, hqueue, hreading⟩
    refine ⟨fun fl k hk => ?_, fun k => ?_, hnodup, hqueue, ?_⟩
    · obtain ⟨st, hst, h⟩ := hfleet fl k hk
      rw [hst]
      exact h
    · cases hst : s.slots[k] with
      | none => trivial
      | some st => exact fun hjoin => hslot k st _ hst hjoin rfl
    · cases hr : s.reading with
      | none => trivial
      | some r => exact hreading r _ hr rfl

/-! ### Classes of a slot -/

theorem vector_set_getElem {α : Type} {n : Nat} (v : Vector α n) (i j : Fin n) (a : α) :
    (v.set i a)[j] = if i = j then a else v[j] := by
  simp only [Fin.getElem_fin, Vector.getElem_set, Fin.ext_iff]

/-- Two stacks that the rules of open slots, queue and read cannot tell apart. -/
def Stack.SameClass (st st' : Stack) : Prop :=
  st'.isJoinable = st.isJoinable ∧ st'.fleet = st.fleet ∧ st'.sealOrder.isSome = st.sealOrder.isSome ∧
    st'.isSealed = st.isSealed

theorem Stack.SameClass.of_phase {st st' : Stack} (hphase : st'.phase = st.phase) (hfleet : st'.fleet = st.fleet) :
    st.SameClass st' := by
  unfold Stack.SameClass Stack.isJoinable Stack.sealOrder Stack.isSealed
  rw [hphase]
  exact ⟨rfl, hfleet, rfl, rfl⟩

theorem Stack.SameClass.isSealedSlot {st st' : Stack} (h : st.SameClass st') :
    isSealedSlot (some st') = isSealedSlot (some st) := h.2.2.1

theorem Stack.SameClass.isHarvestingSlot {st st' : Stack} (h : st.SameClass st') :
    isHarvestingSlot (some st') = isHarvestingSlot (some st) := by
  obtain ⟨-, -, horder, hsealed⟩ := h
  simp only [Machine.isHarvestingSlot, hsealed]
  congr 1
  cases h1 : st.sealOrder <;> cases h2 : st'.sealOrder <;> simp_all

theorem not_sealed_of_joinable {st : Stack} (h : st.isJoinable = true) :
    isSealedSlot (some st) = false ∧ isHarvestingSlot (some st) = false ∧ st.isSealed = false := by
  unfold Stack.isJoinable at h
  unfold isSealedSlot isHarvestingSlot Stack.sealOrder Stack.isSealed
  cases hphase : st.phase <;> simp_all

namespace StackRules

variable {s t : State}

/-- The rules read each fleet's open slot, the slots, the queue and the slot that is read. -/
theorem of_same (h : StackRules s)
    (hfleets : ∀ fl : Fin Config.fleets, (t.fleets[fl]).openSlot = (s.fleets[fl]).openSlot) (hslots : t.slots = s.slots)
    (hqueue : t.harvestQueue = s.harvestQueue)
    (hreading : ∀ r, t.reading = some r → ∃ r0, s.reading = some r0 ∧ r0.slot = r.slot) : StackRules t := by
  refine ⟨fun fl k hk => ?_, fun k st fl hst hjoin hfl => ?_, by rw [hqueue]; exact h.nodup, fun k => ?_,
    fun r k hr hk => ?_⟩
  · rw [hfleets] at hk; rw [hslots]; exact h.ofFleet fl k hk
  · rw [hslots] at hst; rw [hfleets]; exact h.ofSlot k st fl hst hjoin hfl
  · rw [hqueue, hslots]; exact h.queue k
  · obtain ⟨r0, hr0, hslot⟩ := hreading r hr
    rw [hslots]; exact h.reading r0 k hr0 (hslot.trans hk)

theorem of_eq (h : StackRules s) (hfleets : t.fleets = s.fleets) (hslots : t.slots = s.slots)
    (hqueue : t.harvestQueue = s.harvestQueue) (hreading : t.reading = s.reading) : StackRules t :=
  h.of_same (fun fl => by rw [hfleets]) hslots hqueue fun r hr => ⟨r, hreading ▸ hr, rfl⟩

/-- A slot changes within its class. -/
theorem update (h : StackRules s) {k : Fin Config.stackSlots} {st st' : Stack} (hst : s.slots[k] = some st)
    (hclass : st.SameClass st') : StackRules (s.setSlot k (some st')) := by
  have hget : ∀ j : Fin Config.stackSlots, (s.setSlot k (some st')).slots[j] = if k = j then some st' else s.slots[j] :=
    fun j => by rw [State.setSlot_slots, vector_set_getElem]
  refine ⟨fun fl j hj => ?_, fun j x fl hx hjoin hfl => ?_, h.nodup, fun j => ?_, fun r j hr hj => ?_⟩
  · obtain ⟨x, hx, hjoin, hfleet⟩ := h.ofFleet fl j hj
    rw [hget]
    by_cases hkj : k = j
    · subst hkj
      obtain rfl := Option.some.inj (hst.symm.trans hx)
      exact ⟨st', if_pos rfl, hclass.1.trans hjoin, hclass.2.1.trans hfleet⟩
    · exact ⟨x, by rw [if_neg hkj]; exact hx, hjoin, hfleet⟩
  · rw [hget] at hx
    by_cases hkj : k = j
    · subst hkj
      rw [if_pos rfl] at hx
      obtain rfl := Option.some.inj hx
      exact h.ofSlot k st fl hst (hclass.1.symm.trans hjoin) (hclass.2.1.symm.trans hfl)
    · rw [if_neg hkj] at hx
      exact h.ofSlot j x fl hx hjoin hfl
  · rw [hget]
    refine (h.queue j).trans ?_
    by_cases hkj : k = j
    · subst hkj; rw [if_pos rfl, hst, hclass.isSealedSlot]
    · rw [if_neg hkj]
  · rw [hget]
    have hread := h.reading r j hr hj
    by_cases hkj : k = j
    · subst hkj; rw [if_pos rfl, hclass.isHarvestingSlot, ← hst]; exact hread
    · rw [if_neg hkj]; exact hread

/-- A slot in OPEN or LINGER leaves them for DRAINING, and its fleet has no open slot any more (R133). -/
theorem close (h : StackRules s) {k : Fin Config.stackSlots} {st st' : Stack} (hst : s.slots[k] = some st)
    (hjoin : st.isJoinable = true) (hjoin' : st'.isJoinable = false) (hsealed : isSealedSlot (some st') = false) :
    StackRules ((s.clearOpenSlot st.fleet).setSlot k (some st')) := by
  have hget : ∀ j : Fin Config.stackSlots, ((s.clearOpenSlot st.fleet).setSlot k (some st')).slots[j] =
      if k = j then some st' else s.slots[j] := fun j => by
    rw [State.setSlot_slots, vector_set_getElem]; rfl
  have hfleet : ∀ fl : Fin Config.fleets, (((s.clearOpenSlot st.fleet).setSlot k (some st')).fleets[fl]).openSlot =
      if st.fleet = fl then none else (s.fleets[fl]).openSlot := fun fl => by
    rw [State.setSlot_fleets]
    unfold State.clearOpenSlot
    rw [State.setFleet_fleets, vector_set_getElem]
    split <;> rfl
  have hclosed := not_sealed_of_joinable hjoin
  refine ⟨fun fl j hj => ?_, fun j x fl hx hxjoin hxfl => ?_, h.nodup, fun j => ?_, fun r j hr hj => ?_⟩
  · rw [hfleet] at hj
    split at hj
    · simp at hj
    next hfl =>
      obtain ⟨x, hx, hxjoin, hxfleet⟩ := h.ofFleet fl j hj
      have hkj : k ≠ j := fun hkj => by
        subst hkj
        obtain rfl := Option.some.inj (hst.symm.trans hx)
        exact hfl hxfleet
      exact ⟨x, by rw [hget, if_neg hkj]; exact hx, hxjoin, hxfleet⟩
  · rw [hget] at hx
    split at hx
    · obtain rfl := Option.some.inj hx; simp [hjoin'] at hxjoin
    next hkj =>
      have hopen := h.ofSlot j x fl hx hxjoin hxfl
      rw [hfleet, if_neg]
      · exact hopen
      · intro hfl
        rw [h.ofSlot k st fl hst hjoin hfl] at hopen
        exact hkj (Option.some.inj hopen)
  · rw [hget]
    refine (h.queue j).trans ?_
    split
    next hkj => subst hkj; rw [hst, hclosed.1, hsealed]
    · rfl
  · rw [hget]
    have hread := h.reading r j hr hj
    split
    next hkj => subst hkj; rw [hst, hclosed.2.1] at hread; simp at hread
    · exact hread

/-- A DRAINING slot enters SEALED at the end of the queue (R135). -/
theorem drained (h : StackRules s) {k : Fin Config.stackSlots} {st : Stack} (hst : s.slots[k] = some st)
    (hdraining : st.isDraining = true) (st' : Stack) (cause : SealCause) (order next : Word32) :
    StackRules { s.setSlot k (some { st' with phase := .sealed cause order }) with
      sealOrders := next, harvestQueue := s.harvestQueue ++ [k] } := by
  have hget : ∀ j : Fin Config.stackSlots,
      (s.setSlot k (some { st' with phase := .sealed cause order })).slots[j] =
        if k = j then some { st' with phase := .sealed cause order } else s.slots[j] := fun j => by
    rw [State.setSlot_slots, vector_set_getElem]
  have hclass : st.isJoinable = false ∧ isSealedSlot (some st) = false ∧ isHarvestingSlot (some st) = false := by
    unfold Stack.isDraining at hdraining
    unfold Stack.isJoinable isSealedSlot isHarvestingSlot Stack.sealOrder Stack.isSealed
    cases hphase : st.phase <;> simp_all
  refine ⟨fun fl j hj => ?_, fun j x fl hx hxjoin hxfl => ?_, ?_, fun j => ?_, fun r j hr hj => ?_⟩
  · obtain ⟨x, hx, hxjoin, hxfleet⟩ := h.ofFleet fl j hj
    have hkj : k ≠ j := fun hkj => by
      subst hkj
      obtain rfl := Option.some.inj (hst.symm.trans hx)
      rw [hclass.1] at hxjoin
      exact Bool.false_ne_true hxjoin
    exact ⟨x, by rw [hget, if_neg hkj]; exact hx, hxjoin, hxfleet⟩
  · rw [hget] at hx
    split at hx
    · obtain rfl := Option.some.inj hx; simp [Stack.isJoinable] at hxjoin
    · exact h.ofSlot j x fl hx hxjoin hxfl
  · refine List.nodup_append.2 ⟨h.nodup, by simp, fun a ha b hb => ?_⟩
    rw [List.mem_singleton] at hb
    rintro rfl
    subst hb
    have := (h.queue a).1 ha
    rw [hst, hclass.2.1] at this
    simp at this
  · rw [hget]
    simp only [List.mem_append, List.mem_singleton, h.queue j]
    split
    next hkj => subst hkj; simp [isSealedSlot, Stack.sealOrder]
    next hkj => simp [Ne.symm hkj]
  · rw [hget]
    have hread := h.reading r j hr hj
    split
    next hkj => subst hkj; rw [hst, hclass.2.2] at hread; simp at hread
    · exact hread

/-- A slot in OPEN or LINGER is sealed (R133, R135). -/
theorem sealedAs (h : StackRules s) {k : Fin Config.stackSlots} {st : Stack} (hst : s.slots[k] = some st)
    (hjoin : st.isJoinable = true) (cause : SealCause) : StackRules (s.sealedAs k cause st) := by
  have hclosed := h.close hst hjoin (st' := { st with phase := .draining cause }) rfl rfl
  unfold State.sealedAs
  dsimp only
  split
  · exact hclosed
  · have hdrained := hclosed.drained (k := k) (st := { st with phase := .draining cause })
      (by rw [State.setSlot_slots, vector_set_getElem, if_pos rfl]) rfl st cause s.sealOrders (s.sealOrders + 1)
    refine hdrained.of_eq rfl ?_ rfl rfl
    simp [State.setSlot, State.clearOpenSlot, State.setFleet]

/-- A fleet without an open slot opens a FREE one (R125). -/
theorem opened (h : StackRules s) {k : Fin Config.stackSlots} {fl : Fin Config.fleets} (vp : Word32)
    (hfree : s.slots[k] = none) (hnone : (s.fleets[fl]).openSlot = none) : StackRules (s.openSlot k fl vp) := by
  have hget : ∀ j : Fin Config.stackSlots, ∃ st, st.fleet = fl ∧ st.phase = .opened ∧
      (s.openSlot k fl vp).slots[j] = if k = j then some st else s.slots[j] := fun j =>
    ⟨_, rfl, rfl, (vector_set_getElem s.slots k j _)⟩
  have hfleet : ∀ f : Fin Config.fleets, ((s.openSlot k fl vp).fleets[f]).openSlot =
      if fl = f then some k else (s.fleets[f]).openSlot := fun f => by
    have : ((s.openSlot k fl vp).fleets[f]) = if fl = f then { s.fleets[fl] with openSlot := some k } else s.fleets[f] :=
      vector_set_getElem s.fleets fl f _
    rw [this]
    split <;> rfl
  have hqueue : (s.openSlot k fl vp).harvestQueue = s.harvestQueue := rfl
  refine ⟨fun f j hj => ?_, fun j x f hx hxjoin hxfl => ?_, h.nodup, fun j => ?_, fun r j hr hj => ?_⟩
  · obtain ⟨st, hstfleet, hphase, hslot⟩ := hget j
    rw [hfleet] at hj
    split at hj
    next hfl =>
      obtain rfl := Option.some.inj hj
      exact ⟨st, by rw [hslot, if_pos rfl], by simp [Stack.isJoinable, hphase], hstfleet.trans hfl⟩
    · obtain ⟨x, hx, hxjoin, hxfleet⟩ := h.ofFleet f j hj
      have hkj : k ≠ j := fun hkj => by subst hkj; rw [hfree] at hx; simp at hx
      exact ⟨x, by rw [hslot, if_neg hkj]; exact hx, hxjoin, hxfleet⟩
  · obtain ⟨st, hstfleet, hphase, hslot⟩ := hget j
    rw [hslot] at hx
    split at hx
    next hkj =>
      obtain rfl := Option.some.inj hx
      rw [hfleet, if_pos (hstfleet.symm.trans hxfl), hkj]
    · have hopen := h.ofSlot j x f hx hxjoin hxfl
      rw [hfleet, if_neg]
      · exact hopen
      · intro hfl
        subst hfl
        rw [hnone] at hopen
        simp at hopen
  · obtain ⟨st, -, hphase, hslot⟩ := hget j
    rw [hqueue, hslot]
    refine (h.queue j).trans ?_
    split
    next hkj => subst hkj; rw [hfree]; simp [isSealedSlot, Stack.sealOrder, hphase]
    · rfl
  · obtain ⟨st, -, hphase, hslot⟩ := hget j
    rw [hslot]
    have hread := h.reading r j hr hj
    split
    next hkj => subst hkj; rw [hfree] at hread; simp [isHarvestingSlot] at hread
    · exact hread

/-- A SEALED or HARVESTING slot becomes FREE with no read in hand (R140). -/
theorem released (h : StackRules s) (hreading : s.reading = none) {k : Fin Config.stackSlots} {st : Stack}
    (hst : s.slots[k] = some st) (hsealed : st.isSealed = true) : StackRules (releaseSlot k s) := by
  have hget : ∀ j : Fin Config.stackSlots, (releaseSlot k s).slots[j] = if k = j then none else s.slots[j] :=
    fun j => vector_set_getElem s.slots k j none
  have hqueue : (releaseSlot k s).harvestQueue = s.harvestQueue.filter fun j => decide (j ≠ k) :=
    removeFirst_nodup h.nodup k
  refine ⟨fun fl j hj => ?_, fun j x fl hx hxjoin hxfl => ?_, by rw [hqueue]; exact h.nodup.filter _, fun j => ?_,
    fun r j hr hj => ?_⟩
  · obtain ⟨x, hx, hxjoin, hxfleet⟩ := h.ofFleet fl j hj
    have hkj : k ≠ j := fun hkj => by
      subst hkj
      obtain rfl := Option.some.inj (hst.symm.trans hx)
      have := (not_sealed_of_joinable hxjoin).2.2
      simp [hsealed] at this
    exact ⟨x, by rw [hget, if_neg hkj]; exact hx, hxjoin, hxfleet⟩
  · rw [hget] at hx
    split at hx
    · simp at hx
    · exact h.ofSlot j x fl hx hxjoin hxfl
  · rw [hqueue, hget, List.mem_filter, h.queue j]
    split
    next hkj => subst hkj; simp [isSealedSlot]
    next hkj => simp [Ne.symm hkj]
  · have hr : s.reading = some r := hr
    rw [hreading] at hr
    simp at hr

/-- A slot that is read moves to HARVESTING, out of the queue (R149). -/
theorem harvested (h : StackRules s) {k : Fin Config.stackSlots} {st : Stack} (hst : s.slots[k] = some st)
    (hsealed : st.isSealed = true) {r : ReadInHand} (hr : r.slot = k) :
    StackRules { moveToHarvesting k st s with reading := some r } := by
  unfold moveToHarvesting
  split
  next c n hphase =>
    have hget : ∀ j : Fin Config.stackSlots, (s.setSlot k (some { st with phase := .harvesting c })).slots[j] =
        if k = j then some { st with phase := .harvesting c } else s.slots[j] := fun j => by
      rw [State.setSlot_slots, vector_set_getElem]
    refine ⟨fun fl j hj => ?_, fun j x fl hx hxjoin hxfl => ?_, ?_, fun j => ?_, ?_⟩
    · obtain ⟨x, hx, hxjoin, hxfleet⟩ := h.ofFleet fl j hj
      have hkj : k ≠ j := fun hkj => by
        subst hkj
        obtain rfl := Option.some.inj (hst.symm.trans hx)
        simp [(not_sealed_of_joinable hxjoin).2.2] at hsealed
      exact ⟨x, by rw [hget, if_neg hkj]; exact hx, hxjoin, hxfleet⟩
    · rw [hget] at hx
      split at hx
      · obtain rfl := Option.some.inj hx; simp [Stack.isJoinable] at hxjoin
      · exact h.ofSlot j x fl hx hxjoin hxfl
    · dsimp only
      rw [removeFirst_nodup h.nodup]
      exact h.nodup.filter _
    · dsimp only
      rw [removeFirst_nodup h.nodup, hget, List.mem_filter, h.queue j]
      split
      next hkj => subst hkj; simp [isSealedSlot, Stack.sealOrder]
      next hkj => simp [Ne.symm hkj]
    · rintro r' j ⟨rfl⟩ hj
      rw [hget, if_pos (hr.symm.trans hj)]
      rfl
  next hnot =>
    refine ⟨h.ofFleet, h.ofSlot, h.nodup, h.queue, ?_⟩
    rintro r' j ⟨rfl⟩ hj
    obtain rfl := hj.symm.trans hr
    dsimp only
    rw [hst]
    unfold Stack.isSealed at hsealed
    cases hphase : st.phase with
    | sealed c n => exact (hnot c n hphase).elim
    | harvesting c => simp [isHarvestingSlot, Stack.isSealed, Stack.sealOrder, hphase]
    | _ => simp [hphase] at hsealed

end StackRules

/-! ### Resolutions and the merge port -/

/-- A resolution changes its stack slot within its class, or seals it out of DRAINING (R76, R134). -/
theorem StackRules.resolveStack {ev : Event} (h : StackRules ev.st) (k : Fin Config.stackSlots) {out : SweepOutcome}
    (hout : out ≠ .droppedClear) : StackRules (resolveStack k out ev).st := by
  rw [resolveStack_eq k hout]
  split
  · exact h
  next st hst =>
    split
    · exact h.update hst (.of_phase rfl rfl)
    next c hdrains =>
      have hdraining : st.isDraining = true := by
        unfold Stack.drainsWith at hdrains
        unfold Stack.isDraining
        split at hdrains <;> simp_all
      rw [enterSealed_eq]
      exact h.drained hst hdraining (st.countedFor out) c ev.st.sealOrders (ev.st.sealOrders + 1)

theorem removeEntry_stack (e : SweepEntry) (s : State) : (removeEntry e s).fleets = s.fleets ∧
    (removeEntry e s).slots = s.slots ∧ (removeEntry e s).harvestQueue = s.harvestQueue ∧
    (removeEntry e s).reading = s.reading := by
  unfold removeEntry abortJob
  split <;> exact ⟨rfl, rfl, rfl, rfl⟩

theorem StackRules.resolve {ev : Event} (h : StackRules ev.st) {out : SweepOutcome} (hout : out ≠ .droppedClear)
    (counts : Option JobCounts) (e : SweepEntry) : StackRules (resolve out counts e ev).st := by
  obtain ⟨hfleets, hslots, hqueue, hreading⟩ := removeEntry_stack e ev.st
  unfold Machine.resolve
  dsimp only
  rw [if_neg hout]
  exact StackRules.resolveStack (ev := { ev.change (removeEntry e) with
    results := (ev.change (removeEntry e)).results ++ [e.result out counts] })
    (h.of_eq hfleets hslots hqueue hreading) e.slot hout

theorem StackRules.sealSlot {ev : Event} (h : StackRules ev.st) {k : Fin Config.stackSlots} {st : Stack}
    (cause : SealCause) (hst : ev.st.slots[k] = some st) (hjoin : st.isJoinable = true) :
    StackRules (sealSlot k cause st ev).st := by
  rw [sealSlot_eq]
  exact h.sealedAs hst hjoin cause

/-- The open slot of a fleet can be joined and sealed. -/
theorem StackRules.joinable {s : State} (h : StackRules s) {k : Fin Config.stackSlots} {st : Stack}
    (hst : s.slots[k] = some st)
    (hopen : st.isJoinable = true ∨ ∃ fl : Fin Config.fleets, (s.fleets[fl]).openSlot = some k) :
    st.isJoinable = true := by
  rcases hopen with hjoin | ⟨fl, hfl⟩
  · exact hjoin
  · obtain ⟨x, hx, hjoin, -⟩ := h.ofFleet fl k hfl
    obtain rfl := Option.some.inj (hst.symm.trans hx)
    exact hjoin

theorem Change.keeps_stackRules {a b : Event} (h : Change a b) (ha : StackRules a.st) : StackRules b.st := by
  cases h with
  | cause => exact ha
  | flush => exact ha.of_eq (by simp) (by simp) (by simp) (by simp)
  | links h => exact ha.of_same (fun fl => by rw [Event.change_st, h.fleets]) h.slots h.harvestQueue h.reading
  | pilots => exact ha.of_eq rfl rfl rfl rfl
  | latches => exact ha.of_eq rfl rfl rfl rfl
  | @settle e qc fails =>
    obtain ⟨ev1, hst, -, h⟩ := settleSweep_cases e (e.settle qc fails) a
    have hupdated : StackRules ev1.st := by rw [hst]; exact ha.of_eq rfl rfl rfl rfl
    rcases h with h | ⟨-, h⟩ <;> rw [h]
    · exact hupdated
    · exact hupdated.resolve (out := .rejectedQc) nofun _ _
  | resolve _ hout => exact ha.resolve hout _ _
  | sealed cause hst hopen => exact ha.sealSlot cause hst (ha.joinable hst hopen)
  | @linger k st fl ms hopen hst =>
    have hjoin := ha.joinable hst (.inr ⟨fl, hopen⟩)
    have hclass := not_sealed_of_joinable hjoin
    refine ha.update hst ⟨hjoin.symm, rfl, ?_, hclass.2.2.symm⟩
    exact hclass.1.symm
  | grant => exact ha.of_eq rfl rfl rfl rfl

/-! ### Commands of their own -/

theorem addSweep_openSlot (entry : SweepEntry) (s : State) (fl : Fin Config.fleets) :
    ((addSweep entry s).fleets[fl]).openSlot = (s.fleets[fl]).openSlot := by
  have h : (addSweep entry s).fleets[fl] =
      if entry.fleet = fl then { s.fleets[entry.fleet] with lastT0 := some entry.t0 } else s.fleets[fl] :=
    vector_set_getElem s.fleets entry.fleet fl _
  rw [h]
  split
  next hfl => subst hfl; rfl
  · rfl

theorem StackRules.addSweep {s : State} (h : StackRules s) (entry : SweepEntry) : StackRules (addSweep entry s) :=
  h.of_same (addSweep_openSlot entry s) rfl rfl fun r hr => ⟨r, hr, rfl⟩

theorem joinPhase_sameClass (s : State) (st : Stack) : st.SameClass { st with
    phase := match st.phase with
      | .linger _ => .linger (s.startTimer s.fleets[st.fleet].params.linger)
      | p => p
    pending := st.pending + 1, tag := st.tag + 1 } := by
  unfold Stack.SameClass Stack.isJoinable Stack.sealOrder Stack.isSealed
  cases h : st.phase <;> simp_all

theorem StackRules.applyMerge {s : State} (h : StackRules s) (j : Job) (sc : Scratch) :
    StackRules (applyMerge j sc s) := by
  unfold Machine.applyMerge
  split
  · exact h
  next st hst => exact h.update hst (.of_phase rfl rfl)

theorem passPort_stack (k : Fin Config.stackSlots) (s : State) : (passPort k s).fleets = s.fleets ∧
    (passPort k s).slots = s.slots ∧ (passPort k s).harvestQueue = s.harvestQueue ∧
    (passPort k s).reading = s.reading := by
  unfold passPort beginMerge
  split
  · exact ⟨rfl, rfl, rfl, rfl⟩
  · split <;> exact ⟨rfl, rfl, rfl, rfl⟩

theorem StackRules.mergeEvent {s : State} (h : StackRules s) (l : Fin Config.lanes) (j : Job) (sc : Scratch) :
    StackRules ((resolveMerged j sc (Event.start (Machine.applyMerge j sc s))).change fun u =>
      passPort j.slot (u.setLane l .idle)).st := by
  have hresolved : StackRules (resolveMerged j sc (Event.start (Machine.applyMerge j sc s))).st := by
    rcases resolveMerged_cases j sc (Event.start (Machine.applyMerge j sc s)) with hm | ⟨e, -, hm⟩ <;> rw [hm]
    · exact h.applyMerge j sc
    · exact StackRules.resolve (ev := Event.start (Machine.applyMerge j sc s)) (out := .merged) (h.applyMerge j sc) nofun _ _
  generalize resolveMerged j sc (Event.start (Machine.applyMerge j sc s)) = ev at hresolved ⊢
  obtain ⟨hfleets, hslots, hqueue, hreading⟩ := passPort_stack j.slot (ev.st.setLane l .idle)
  exact hresolved.of_eq hfleets hslots hqueue hreading

/-- Behind the seal of a fleet's moved slot the fleet has no open slot, and a FREE slot is FREE still (R69, step 1). -/
theorem sealMoved_stack {s : State} (h : StackRules s) {fl : Fin Config.fleets} {vp : Word32}
    (hmoved : ∀ k0 st0, s.openStack fl = some (k0, st0) → st0.vp ≠ vp) :
    StackRules (sealMoved fl vp (Event.start s)).st ∧
      ((sealMoved fl vp (Event.start s)).st.fleets[fl]).openSlot = none ∧
      ∀ k : Fin Config.stackSlots, s.slots[k] = none → (sealMoved fl vp (Event.start s)).st.slots[k] = none := by
  unfold sealMoved
  cases hopen : (Event.start s).st.openStack fl with
  | none =>
    refine ⟨h, ?_, fun k hk => hk⟩
    by_contra hsome
    obtain ⟨k, hk⟩ := Option.ne_none_iff_exists'.1 hsome
    obtain ⟨st, hst, -, -⟩ := h.ofFleet fl k hk
    have : s.openStack fl = some (k, st) := State.openStack_eq_some hk hst
    rw [Event.start_st, this] at hopen
    simp at hopen
  | some x =>
    obtain ⟨k0, st0⟩ := x
    obtain ⟨hslot, hst⟩ := openStack_eq hopen
    obtain ⟨x, hx, hjoin, hfleet⟩ := h.ofFleet fl k0 hslot
    obtain rfl := Option.some.inj (hx.symm.trans hst)
    dsimp only
    rw [if_neg (hmoved k0 x hopen)]
    refine ⟨StackRules.sealSlot h _ hst hjoin, ?_, fun k hk => ?_⟩
    · rw [sealSlot_eq, ← hfleet]
      unfold State.sealedAs
      dsimp only
      split <;>
      · have hset : (s.fleets.set x.fleet { s.fleets[x.fleet] with openSlot := none })[x.fleet] =
            { s.fleets[x.fleet] with openSlot := none } := by rw [vector_set_getElem, if_pos rfl]
        exact congrArg Fleet.openSlot hset
    · have hne : k0 ≠ k := fun hkk => by rw [← hkk] at hk; exact absurd (hk.symm.trans hst) (by simp)
      rw [sealSlot_eq]
      unfold State.sealedAs
      dsimp only
      split <;>
      · refine (vector_set_getElem s.slots k0 k _).trans ?_
        rw [if_neg hne]
        exact hk

theorem isQuiet_slots {s : State} (h : isQuiet s = true) (k : Fin Config.stackSlots) : s.slots[k] = none :=
  ((isQuiet_iff s).1 h).2 k

/-- No slot is in use. -/
theorem StackRules.of_empty {t : State} (hfleets : ∀ fl : Fin Config.fleets, (t.fleets[fl]).openSlot = none)
    (hslots : ∀ k : Fin Config.stackSlots, t.slots[k] = none) (hqueue : t.harvestQueue = []) (hreading : t.reading = none) :
    StackRules t := by
  refine ⟨fun fl k hk => ?_, fun k st fl hst => ?_, by rw [hqueue]; exact List.nodup_nil, fun k => ?_, fun r k hr => ?_⟩
  · rw [hfleets] at hk; simp at hk
  · rw [hslots] at hst; simp at hst
  · rw [hqueue, hslots]; simp [isSealedSlot]
  · rw [hreading] at hr; simp at hr

theorem Single.keeps_stackRules {c : Instr} {s : State} {ev : Event} (h : Single c s ev) (hs : StackRules s) :
    StackRules ev.st := by
  cases h with
  | reset => exact .of_empty (by simp [State.reset, Fleet.reset]) (by simp [State.reset]) rfl rfl
  | @join _ fl vp p t0 n _ _ energy k st _ _ _ hopen =>
    obtain ⟨-, hst⟩ := openStack_eq hopen
    exact (StackRules.update hs hst (joinPhase_sameClass s st)).addSweep _
  | fresh _ _ _ hfree hmoved =>
    obtain ⟨hrules, hnone, hslots⟩ := sealMoved_stack hs hmoved
    exact (hrules.opened _ (hslots _ hfree) hnone).addSweep _
  | correlate =>
    unfold askPort
    dsimp only
    split <;> exact hs.of_eq rfl rfl rfl rfl
  | merge => exact hs.mergeEvent _ _ _
  | setup =>
    refine hs.of_same (fun fl => ?_) rfl rfl fun r hr => ⟨r, hr, rfl⟩
    simp [setupStream, clearSlip]
  | channelSet => exact hs.of_eq rfl rfl rfl rfl
  | fleetSet fl d =>
    refine hs.of_same (fun f => ?_) rfl rfl fun r hr => ⟨r, hr, rfl⟩
    rw [Event.start_st, State.setFleet_fleets, vector_set_getElem]
    split
    next hfl => rw [hfl]
    · rfl
  | mask => exact hs.of_eq rfl rfl rfl rfl
  | release hreading hst hsealed => exact hs.released hreading hst hsealed
  | read hst hsealed hr => exact hs.harvested hst hsealed hr
  | clear => exact .of_empty (by simp [clearEvent, clearBlocks]) (by simp [clearEvent, clearBlocks]) rfl rfl

/-- The rules on events, kept by every change. -/
theorem ClockChange.keeps_stackRules {a b : Event} (h : ClockChange a b) (ha : StackRules a.st) : StackRules b.st := by
  cases h with
  | change h => exact h.keeps_stackRules ha
  | clock => exact ha.of_eq rfl rfl rfl rfl

theorem StreamChange.keeps_stackRules {a b : Event} (h : StreamChange a b) (ha : StackRules a.st) : StackRules b.st := by
  cases h with
  | change h => exact h.keeps_stackRules ha
  | stream h => exact ha.of_eq h.fleets h.slots h.harvestQueue h.reading
  | arrive => exact ha.of_eq rfl rfl rfl rfl
  | slip => exact ha.of_same (fun fl => by simp [clearSlip]) rfl rfl fun r hr => ⟨r, hr, rfl⟩

/-- Settles O12: every change keeps the rules of open slots, queue and read. -/
theorem openSlotsAndHarvestQueueAgree : Obligations.OpenSlotsAndHarvestQueueAgree := by
  intro s t hs hstep
  rw [stackInv_iff] at *
  exact step_keeps (P := fun ev => StackRules ev.st) (fun s q h => h.of_eq rfl rfl rfl rfl)
    (fun _ _ h => h.keeps_stackRules) (fun _ _ h => h.keeps_stackRules) (fun _ _ h => h.keeps_stackRules)
    (fun _ _ _ h => h.keeps_stackRules) hs hstep

end Sys2Proof.Machine

/-! PROOFS. Pins and pending counts (R52, R127, R134) over every step. -/

namespace Sys2Proof.Machine

/-! ### What one resolution leaves in the tables -/

section Resolved

variable (s : State) (e : SweepEntry) (out : SweepOutcome)

theorem State.resolvedAs_sweeps :
    (s.resolvedAs e out).sweeps = s.sweeps.filter fun x => decide (x.number ≠ e.number) := by
  unfold State.resolvedAs
  dsimp only
  cases e.stage <;> split <;> (try split) <;> rfl

theorem State.resolvedAs_pilots (p : Fin Config.pilots) : (s.resolvedAs e out).pilots[p] =
    if e.pilot = p then { s.pilots[e.pilot] with pins := (s.pilots[e.pilot]).pins - 1 } else s.pilots[p] := by
  refine Eq.trans ?_ (vector_set_getElem s.pilots e.pilot p _)
  unfold State.resolvedAs
  dsimp only
  cases e.stage <;> split <;> (try split) <;> rfl

/-- The stack after the resolution of one of its sweeps. -/
def Stack.resolvedWith (st : Stack) (out : SweepOutcome) (order : Word32) : Stack :=
  match st.drainsWith with
  | none => st.countedFor out
  | some c => { st.countedFor out with phase := .sealed c order }

theorem State.resolvedAs_slots (k : Fin Config.stackSlots) : (s.resolvedAs e out).slots[k] =
    if e.slot = k then (s.slots[e.slot]).map (fun st => st.resolvedWith out s.sealOrders) else s.slots[k] := by
  unfold State.resolvedAs
  dsimp only
  cases hst : s.slots[e.slot] with
  | none =>
    have hnone : (if e.slot = k then none else s.slots[k]) = s.slots[k] := by
      split
      next hk => subst hk; exact hst.symm
      · rfl
    refine Eq.trans ?_ hnone.symm
    cases e.stage <;> rfl
  | some st =>
    refine Eq.trans ?_ (vector_set_getElem s.slots e.slot k _)
    unfold Stack.resolvedWith
    dsimp only [Option.map_some]
    cases st.drainsWith <;> cases e.stage <;> rfl

end Resolved

theorem Stack.resolvedWith_pending (st : Stack) (out : SweepOutcome) (order : Word32) :
    (st.resolvedWith out order).pending = st.pending - 1 := by
  unfold Stack.resolvedWith
  split <;> rfl

/-! ### The claims of the table -/

/-- What an entry claims: its number, its stack slot and its pilot slot. -/
def SweepEntry.claim (e : SweepEntry) : Word32 × Fin Config.stackSlots × Fin Config.pilots := (e.number, e.slot, e.pilot)

/-- Of a table with distinct numbers, an entry with a property counts for one. -/
theorem count_without {l : List SweepEntry} (hd : (l.map SweepEntry.number).Nodup) {e : SweepEntry} (he : e ∈ l)
    (p : SweepEntry → Bool) : ((l.filter fun x => decide (x.number ≠ e.number)).filter p).length +
      (if p e = true then 1 else 0) = (l.filter p).length := by
  induction l with
  | nil => simp at he
  | cons a l ih =>
    rw [List.map_cons, List.nodup_cons] at hd
    obtain ⟨hfresh, hd⟩ := hd
    rcases List.mem_cons.1 he with rfl | he
    · have hrest : l.filter (fun x => decide (x.number ≠ e.number)) = l := List.filter_eq_self.2 fun x hx => by
        have : x.number ≠ e.number := fun h => hfresh (h ▸ List.mem_map_of_mem hx)
        simpa using this
      rw [List.filter_cons_of_neg (by simp), hrest, List.filter_cons]
      by_cases hp : p e = true
      · rw [if_pos hp, if_pos hp, List.length_cons]
      · rw [if_neg hp, if_neg hp, Nat.add_zero]
    · have hne : a.number ≠ e.number := fun h => hfresh (h ▸ List.mem_map_of_mem he)
      rw [List.filter_cons_of_pos (by simpa using hne), List.filter_cons, List.filter_cons]
      have := ih hd he
      by_cases ha : p a = true
      · rw [if_pos ha, if_pos ha, List.length_cons, List.length_cons]; omega
      · rw [if_neg ha, if_neg ha]; exact this

theorem entriesOf_resolved {s : State} (hd : DistinctNumbers s) {e : SweepEntry} (he : e ∈ s.sweeps)
    (out : SweepOutcome) (k : Fin Config.stackSlots) :
    entriesOf (s.resolvedAs e out) k + (if e.slot = k then 1 else 0) = entriesOf s k := by
  unfold entriesOf
  rw [State.resolvedAs_sweeps]
  simpa using count_without hd he fun x => decide (x.slot = k)

theorem pinsOf_resolved {s : State} (hd : DistinctNumbers s) {e : SweepEntry} (he : e ∈ s.sweeps)
    (out : SweepOutcome) (p : Fin Config.pilots) :
    pinsOf (s.resolvedAs e out) p + (if e.pilot = p then 1 else 0) = pinsOf s p := by
  unfold pinsOf
  rw [State.resolvedAs_sweeps]
  simpa using count_without hd he fun x => decide (x.pilot = p)

/-! ### The invariant by its rules -/

/-- A stack slot is named by this number of entries (R127, R134). -/
def SlotClaim (n : Nat) : Option Stack → Prop
  | none => n = 0
  | some st => st.pending = n ∧ (st.isSealed = true → st.pending = 0) ∧ (st.isDraining = true → 1 ≤ st.pending)

/-- A pilot slot is named by this number of entries (R52). -/
def PilotClaim (n : Nat) (p : PilotSlot) : Prop := p.pins = n ∧ (1 ≤ p.pins → p.phase.isReady = true)

/-- `ClaimInv` with a name for each of its rules. -/
structure ClaimRules (s : State) : Prop where
  numbers : DistinctNumbers s
  pilots : ∀ p : Fin Config.pilots, PilotClaim (pinsOf s p) s.pilots[p]
  slots : ∀ k : Fin Config.stackSlots, SlotClaim (entriesOf s k) s.slots[k]

theorem claimInv_iff (s : State) : ClaimInv s ↔ ClaimRules s := by
  have hslot : ∀ k : Fin Config.stackSlots, SlotClaim (entriesOf s k) s.slots[k] ↔
      match s.slots[k] with
      | none => entriesOf s k = 0
      | some st => st.pending = entriesOf s k ∧ (st.isSealed = true → st.pending = 0) ∧
          (st.isDraining = true → 1 ≤ st.pending) := by
    intro k
    cases s.slots[k] <;> exact Iff.rfl
  constructor
  · rintro ⟨hnumbers, hpilots, hslots⟩
    exact ⟨hnumbers, hpilots, fun k => (hslot k).2 (hslots k)⟩
  · rintro ⟨hnumbers, hpilots, hslots⟩
    exact ⟨hnumbers, hpilots, fun k => (hslot k).1 (hslots k)⟩

/-- A slot keeps its claims where its pending count and the two closed phases stay. -/
theorem SlotClaim.of_same {n : Nat} {st st' : Stack} (h : SlotClaim n (some st)) (hpending : st'.pending = st.pending)
    (hsealed : st'.isSealed = true → st.isSealed = true ∨ st.pending = 0)
    (hdraining : st'.isDraining = true → st.isDraining = true ∨ 1 ≤ st.pending) : SlotClaim n (some st') := by
  obtain ⟨hcount, hs, hd⟩ := h
  exact ⟨hpending.trans hcount, fun h => hpending.trans ((hsealed h).elim hs id),
    fun h => hpending ▸ (hdraining h).elim hd id⟩

theorem SlotClaim.resolved {n : Nat} {st : Stack} (h : SlotClaim (n + 1) (some st)) (out : SweepOutcome)
    (order : Word32) : SlotClaim n (some (st.resolvedWith out order)) := by
  obtain ⟨hcount, hsealed, hdraining⟩ := h
  have hpending := Stack.resolvedWith_pending st out order
  refine ⟨by omega, fun h => ?_, fun h => ?_⟩ <;> rw [hpending]
  · cases hdrains : st.drainsWith with
    | none =>
      have : st.isSealed = true := by simpa [Stack.resolvedWith, hdrains, Stack.countedFor, Stack.isSealed] using h
      have := hsealed this
      omega
    | some c =>
      unfold Stack.drainsWith at hdrains
      split at hdrains
      · split at hdrains
        · omega
        · simp at hdrains
      · simp at hdrains
  · cases hphase : st.phase with
    | draining c =>
      by_cases hlast : st.pending ≤ 1
      · simp [Stack.resolvedWith, Stack.drainsWith, hphase, hlast, Stack.isDraining] at h
      · omega
    | _ => simp [Stack.resolvedWith, Stack.drainsWith, hphase, Stack.countedFor, Stack.isDraining] at h

namespace ClaimRules

variable {s t : State}

/-- The rules read the claims of the table, each slot and each pilot slot. -/
theorem of_claims (h : ClaimRules s) (hclaims : t.sweeps.map SweepEntry.claim = s.sweeps.map SweepEntry.claim)
    (hpilots : ∀ (p : Fin Config.pilots) (n : Nat), PilotClaim n s.pilots[p] → PilotClaim n t.pilots[p])
    (hslots : ∀ (k : Fin Config.stackSlots) (n : Nat), SlotClaim n s.slots[k] → SlotClaim n t.slots[k]) :
    ClaimRules t := by
  have hcount : ∀ f : Word32 × Fin Config.stackSlots × Fin Config.pilots → Bool,
      (t.sweeps.filter fun e => f e.claim).length = (s.sweeps.filter fun e => f e.claim).length := fun f => by
    have := congrArg (fun l => (l.filter f).length) hclaims
    simpa [List.filter_map, Function.comp_def] using this
  have hentries : ∀ k, entriesOf t k = entriesOf s k := fun k => hcount fun c => decide (c.2.1 = k)
  have hpins : ∀ p, pinsOf t p = pinsOf s p := fun p => hcount fun c => decide (c.2.2 = p)
  refine ⟨?_, fun p => ?_, fun k => ?_⟩
  · have hnumbers : t.sweeps.map SweepEntry.number = s.sweeps.map SweepEntry.number := by
      have hfst := congrArg (List.map Prod.fst) hclaims
      rw [List.map_map, List.map_map] at hfst
      exact hfst
    unfold DistinctNumbers
    rw [hnumbers]
    exact h.numbers
  · rw [hpins]; exact hpilots p _ (h.pilots p)
  · rw [hentries]; exact hslots k _ (h.slots k)

theorem of_eq (h : ClaimRules s) (hsweeps : t.sweeps = s.sweeps) (hpilots : t.pilots = s.pilots)
    (hslots : t.slots = s.slots) : ClaimRules t :=
  h.of_claims (by rw [hsweeps]) (fun p n hp => by rw [hpilots]; exact hp) (fun k n hk => by rw [hslots]; exact hk)

/-- One slot changes, and the table's claims stay. -/
theorem setSlot (h : ClaimRules s) {k : Fin Config.stackSlots} (slot : Option Stack)
    (hk : ∀ n, SlotClaim n s.slots[k] → SlotClaim n slot) (hsweeps : t.sweeps = s.sweeps) (hpilots : t.pilots = s.pilots)
    (hslots : t.slots = (s.setSlot k slot).slots) : ClaimRules t := by
  refine h.of_claims (by rw [hsweeps]) (fun p n hp => by rw [hpilots]; exact hp) fun j n hj => ?_
  rw [hslots, State.setSlot_slots, vector_set_getElem]
  split
  next hkj => subst hkj; exact hk n hj
  · exact hj

/-- One entry changes, with its claims as they were. -/
theorem updateSweep (h : ClaimRules s) {n : Word32} {f : SweepEntry → SweepEntry}
    (hf : ∀ x ∈ s.sweeps, x.number = n → (f x).claim = x.claim) : ClaimRules (s.updateSweep n f) := by
  refine h.of_claims ?_ (fun _ _ hp => hp) fun _ _ hk => hk
  rw [State.updateSweep, List.map_map]
  refine List.map_congr_left fun x hx => ?_
  simp only [Function.comp]
  split
  next hn => exact hf x hx hn
  · rfl

theorem resolve {ev : Event} (h : ClaimRules ev.st) {out : SweepOutcome} (hout : out ≠ .droppedClear)
    {counts : Option JobCounts} {e : SweepEntry} (he : e ∈ ev.st.sweeps) : ClaimRules (resolve out counts e ev).st := by
  rw [resolve_eq hout _ _ _ h.numbers]
  refine ⟨?_, fun p => ?_, fun k => ?_⟩
  · unfold DistinctNumbers
    rw [State.resolvedAs_sweeps]
    exact h.numbers.sublist (List.filter_sublist.map _)
  · have hcount := pinsOf_resolved h.numbers he out p
    obtain ⟨hpins, hready⟩ := h.pilots p
    unfold PilotClaim
    rw [State.resolvedAs_pilots]
    split at hcount
    next hp =>
      subst hp
      rw [if_pos rfl]
      dsimp only
      exact ⟨by rw [hpins, ← hcount]; rfl, fun h => hready (by omega)⟩
    next hp =>
      rw [if_neg hp]
      exact ⟨hpins.trans hcount.symm, hready⟩
  · have hcount := entriesOf_resolved h.numbers he out k
    have hslot := h.slots k
    rw [State.resolvedAs_slots]
    split at hcount
    next hk =>
      subst hk
      rw [if_pos rfl]
      rw [← hcount] at hslot
      cases hst : ev.st.slots[e.slot] with
      | none => rw [hst] at hslot; simp [SlotClaim] at hslot
      | some st => rw [hst] at hslot; exact hslot.resolved out ev.st.sealOrders
    next hk =>
      rw [if_neg hk]
      exact (show entriesOf (ev.st.resolvedAs e out) k = entriesOf ev.st k from hcount) ▸ hslot

/-- A slot that exists is sealed: DRAINING where sweeps are pending, SEALED where none is (R135). -/
theorem sealSlot {ev : Event} (h : ClaimRules ev.st) {k : Fin Config.stackSlots} {st : Stack} (cause : SealCause)
    (hst : ev.st.slots[k] = some st) : ClaimRules (sealSlot k cause st ev).st := by
  rw [sealSlot_eq]
  unfold State.sealedAs
  dsimp only
  split
  next hpending =>
    refine h.setSlot (k := k) (some { st with phase := .draining cause }) (fun n hn => ?_) rfl rfl rfl
    rw [hst] at hn
    exact hn.of_same rfl nofun fun _ => .inr hpending
  next hpending =>
    refine h.setSlot (k := k) (some { st with phase := .sealed cause ev.st.sealOrders }) (fun n hn => ?_) rfl rfl rfl
    rw [hst] at hn
    exact hn.of_same rfl (fun _ => .inr (by omega)) nofun

end ClaimRules

theorem SweepEntry.settle_claim (e : SweepEntry) (qc : QcOutcome) (fails : FailSet) :
    (e.settle qc fails).claim = e.claim := rfl

theorem DistinctNumbers.eq_of_number {s : State} (h : DistinctNumbers s) {x y : SweepEntry} (hx : x ∈ s.sweeps)
    (hy : y ∈ s.sweeps) (hn : x.number = y.number) : x = y :=
  List.inj_on_of_nodup_map h hx hy hn

theorem Change.keeps_claimRules {a b : Event} (h : Change a b) (ha : ClaimRules a.st) : ClaimRules b.st := by
  cases h with
  | cause => exact ha
  | flush => exact ha.of_eq (by simp) (by simp) (by simp)
  | links h => exact ha.of_eq h.sweeps h.pilots h.slots
  | pilots hmoves =>
    refine ha.of_claims rfl (fun p n hp => ?_) fun _ _ hk => hk
    obtain ⟨hpins, hready, -, -⟩ := hmoves p
    exact ⟨hpins.trans hp.1, fun h => hready (hp.2 (hpins ▸ h)) (hpins ▸ h)⟩
  | latches => exact ha.of_eq rfl rfl rfl
  | @settle e qc fails he =>
    obtain ⟨ev1, hst, -, h⟩ := settleSweep_cases e (e.settle qc fails) a
    have hupdated : ClaimRules ev1.st := by
      rw [hst]
      exact ha.updateSweep fun x hx hn => by rw [ha.numbers.eq_of_number hx he hn, SweepEntry.settle_claim]
    rcases h with h | ⟨-, h⟩ <;> rw [h]
    · exact hupdated
    · exact hupdated.resolve (out := .rejectedQc) nofun (by rw [hst]; exact mem_updateSweep he)
  | resolve _ hout he => exact ha.resolve hout he
  | sealed cause hst => exact ha.sealSlot cause hst
  | @linger k st fl ms _ hst =>
    refine ha.setSlot (k := k) _ (fun n hn => ?_) rfl rfl rfl
    rw [hst] at hn
    exact hn.of_same rfl nofun nofun
  | @grant e l =>
    exact (ha.updateSweep (n := e.number) (f := fun x => { x with stage := .correlating l }) fun _ _ _ => rfl).of_eq
      rfl rfl rfl

/-! ### Commands of their own -/

/-- A sweep is accepted on a READY pilot and a stack slot that has counted it (R69, R127). -/
theorem ClaimRules.added {s t : State} (h : ClaimRules s) {e : SweepEntry} (hfresh : ∀ x ∈ s.sweeps, x.number ≠ e.number)
    (hready : (s.pilots[e.pilot]).phase.isReady = true) {st : Stack} (hpending : st.pending = entriesOf s e.slot + 1)
    (hsealed : st.isSealed = false) (hsweeps : t.sweeps = s.sweeps ++ [e])
    (hpilots : ∀ p : Fin Config.pilots, t.pilots[p] =
      if e.pilot = p then { s.pilots[e.pilot] with pins := (s.pilots[e.pilot]).pins + 1 } else s.pilots[p])
    (hslots : ∀ k : Fin Config.stackSlots, SlotClaim (entriesOf s k) t.slots[k] ∨ e.slot = k)
    (hslot : t.slots[e.slot] = some st) : ClaimRules t := by
  refine ⟨?_, fun p => ?_, fun k => ?_⟩
  · unfold DistinctNumbers
    rw [hsweeps, List.map_append]
    refine List.nodup_append.2 ⟨h.numbers, by simp, ?_⟩
    intro n hn m hm
    obtain ⟨x, hx, rfl⟩ := List.mem_map.1 hn
    obtain rfl : m = e.number := by simpa using hm
    exact hfresh x hx
  · obtain ⟨hpins, hphase⟩ := h.pilots p
    have hcount : pinsOf t p = pinsOf s p + if e.pilot = p then 1 else 0 := by
      unfold pinsOf
      rw [hsweeps, List.filter_append, List.length_append, List.filter_cons]
      split <;> simp_all
    rw [hpilots, hcount]
    split
    next hp => subst hp; exact ⟨by rw [hpins], fun _ => hready⟩
    · exact ⟨hpins, hphase⟩
  · have hcount : entriesOf t k = entriesOf s k + if e.slot = k then 1 else 0 := by
      unfold entriesOf
      rw [hsweeps, List.filter_append, List.length_append, List.filter_cons]
      split <;> simp_all
    rw [hcount]
    by_cases hk : e.slot = k
    · subst hk
      rw [if_pos rfl, hslot]
      exact ⟨hpending, fun h => by simp [hsealed] at h, fun _ => by omega⟩
    · rw [if_neg hk]
      exact (hslots k).elim id fun h => (hk h).elim

theorem FreshNumber.of_links {s u : State} (h : FreshNumber s) (hu : s.LinksMove u) : FreshNumber u := by
  unfold FreshNumber at *
  rwa [hu.sweeps, hu.sweepCounter]

theorem ClaimRules.applyMerge {s : State} (h : ClaimRules s) (j : Job) (sc : Scratch) :
    ClaimRules (applyMerge j sc s) := by
  unfold Machine.applyMerge
  split
  · exact h
  next st hst =>
    refine h.setSlot (k := j.slot) _ (fun n hn => ?_) rfl rfl rfl
    rw [hst] at hn
    exact hn.of_same rfl .inl .inl

theorem passPort_claims (k : Fin Config.stackSlots) (s : State) : (passPort k s).sweeps = s.sweeps ∧
    (passPort k s).pilots = s.pilots ∧ (passPort k s).slots = s.slots := by
  unfold passPort beginMerge
  split
  · exact ⟨rfl, rfl, rfl⟩
  · split <;> exact ⟨rfl, rfl, rfl⟩

theorem ClaimRules.mergeEvent {s : State} (h : ClaimRules s) (l : Fin Config.lanes) (j : Job) (sc : Scratch) :
    ClaimRules ((resolveMerged j sc (Event.start (Machine.applyMerge j sc s))).change fun u =>
      passPort j.slot (u.setLane l .idle)).st := by
  have happlied := h.applyMerge j sc
  have hresolved : ClaimRules (resolveMerged j sc (Event.start (Machine.applyMerge j sc s))).st := by
    rcases resolveMerged_cases j sc (Event.start (Machine.applyMerge j sc s)) with hm | ⟨e, he, hm⟩ <;> rw [hm]
    · exact happlied
    · exact ClaimRules.resolve (ev := Event.start (Machine.applyMerge j sc s)) (out := .merged) happlied nofun
        (findSweep_mem he)
  generalize resolveMerged j sc (Event.start (Machine.applyMerge j sc s)) = ev at hresolved ⊢
  obtain ⟨hsweeps, hpilots, hslots⟩ := passPort_claims j.slot (ev.st.setLane l .idle)
  exact hresolved.of_eq hsweeps hpilots hslots

theorem ClaimRules.sealMoved {s : State} (h : ClaimRules s) (fl : Fin Config.fleets) (vp : Word32) :
    ClaimRules (sealMoved fl vp (Event.start s)).st := by
  rcases sealMoved_cases fl vp (Event.start s) with hm | ⟨k, st, hopen, -, hm⟩ <;> rw [hm]
  · exact h
  · exact ClaimRules.sealSlot h .fleetMoved (openStack_eq hopen).2

@[simp] theorem sealMoved_pilots (fl : Fin Config.fleets) (vp : Word32) (ev : Event) :
    (sealMoved fl vp ev).st.pilots = ev.st.pilots := by
  rcases sealMoved_cases fl vp ev with h | ⟨k, st, -, -, h⟩ <;> rw [h]
  rw [sealSlot_eq]
  unfold State.sealedAs
  dsimp only
  split <;> rfl

theorem addSweep_pilots (entry : SweepEntry) (s : State) (p : Fin Config.pilots) : (addSweep entry s).pilots[p] =
    if entry.pilot = p then { s.pilots[entry.pilot] with pins := (s.pilots[entry.pilot]).pins + 1 } else s.pilots[p] :=
  vector_set_getElem s.pilots entry.pilot p _

/-- An accepted sweep joins a slot in OPEN or LINGER. -/
theorem ClaimRules.joined {s : State} (h : ClaimRules s) {entry : SweepEntry}
    (hfresh : ∀ x ∈ s.sweeps, x.number ≠ entry.number) (hready : (s.pilots[entry.pilot]).phase.isReady = true)
    {st : Stack} (hst : s.slots[entry.slot] = some st) (hjoin : st.isJoinable = true) :
    ClaimRules (addSweep entry (s.joinSlot entry.slot st)) := by
  have hclaim := h.slots entry.slot
  rw [hst] at hclaim
  have hclosed := not_sealed_of_joinable ((joinPhase_sameClass s st).1.trans hjoin)
  refine h.added (e := entry) hfresh hready (congrArg (· + 1) hclaim.1) hclosed.2.2 (by simp) (addSweep_pilots _ _)
    (fun j => ?_) ((vector_set_getElem s.slots entry.slot entry.slot _).trans (if_pos rfl))
  by_cases hk : entry.slot = j
  · exact .inr hk
  · have hkept : (s.joinSlot entry.slot st).slots[j] = s.slots[j] :=
      (vector_set_getElem s.slots entry.slot j _).trans (if_neg hk)
    exact .inl (hkept ▸ h.slots j)

/-- An accepted sweep opens a FREE slot. -/
theorem ClaimRules.opened {s : State} (h : ClaimRules s) {entry : SweepEntry} (fl : Fin Config.fleets) (vp : Word32)
    (hfresh : ∀ x ∈ s.sweeps, x.number ≠ entry.number) (hready : (s.pilots[entry.pilot]).phase.isReady = true)
    (hfree : s.slots[entry.slot] = none) : ClaimRules (addSweep entry (s.openSlot entry.slot fl vp)) := by
  have hclaim := h.slots entry.slot
  rw [hfree] at hclaim
  refine h.added (e := entry) hfresh hready (congrArg (· + 1) (Eq.symm hclaim)) ?_ (by simp) (addSweep_pilots _ _)
    (fun j => ?_) ((vector_set_getElem s.slots entry.slot entry.slot _).trans (if_pos rfl))
  · rfl
  by_cases hk : entry.slot = j
  · exact .inr hk
  · have hkept : (s.openSlot entry.slot fl vp).slots[j] = s.slots[j] :=
      (vector_set_getElem s.slots entry.slot j _).trans (if_neg hk)
    exact .inl (hkept ▸ h.slots j)

/-- With an empty table and no slot in use, the pilot slots alone have to be without pins. -/
theorem ClaimRules.of_empty {t : State} (hsweeps : t.sweeps = [])
    (hpilots : ∀ p : Fin Config.pilots, (t.pilots[p]).pins = 0) (hslots : ∀ k : Fin Config.stackSlots, t.slots[k] = none) :
    ClaimRules t := by
  refine ⟨by simp [DistinctNumbers, hsweeps], fun p => ⟨?_, ?_⟩, fun k => ?_⟩
  · rw [hpilots]; simp [pinsOf, hsweeps]
  · rw [hpilots]; omega
  · rw [hslots]; simp [SlotClaim, entriesOf, hsweeps]

theorem clearPilot_pins (p : PilotSlot) : (clearPilot p).pins = 0 := by
  unfold clearPilot
  split <;> rfl

theorem Single.keeps_claimRules {c : Instr} {s : State} {ev : Event} (h : Single c s ev) (hfresh : FreshNumber s)
    (hstack : StackRules s) (hs : ClaimRules s) : ClaimRules ev.st := by
  cases h with
  | reset => exact .of_empty rfl (by simp [State.reset, PilotSlot.reset]) (by simp [State.reset])
  | @join _ fl vp p t0 n _ _ energy k st hready _ _ hopen =>
    obtain ⟨hslot, hst⟩ := openStack_eq hopen
    obtain ⟨x, hx, hjoin, -⟩ := hstack.ofFleet fl k hslot
    obtain rfl := Option.some.inj (hst.symm.trans hx)
    exact hs.joined (entry := newEntry s fl vp k p t0 n energy) hfresh (congrArg PilotPhase.isReady hready) hst hjoin
  | @fresh _ fl vp p t0 n _ _ energy k hready _ _ hfree hmoved =>
    have hnone := (sealMoved_stack hstack hmoved).2.2 k hfree
    have hmovedPilots := sealMoved_pilots fl vp (Event.start s)
    have hmovedSweeps := sealMoved_sweeps fl vp (Event.start s)
    have hsealed := hs.sealMoved fl vp
    generalize (sealMoved fl vp (Event.start s)) = ev at hnone hmovedPilots hmovedSweeps hsealed
    refine hsealed.opened (entry := newEntry s fl vp k p t0 n energy) fl vp ?_ ?_ hnone
    · rw [hmovedSweeps]; exact hfresh
    · rw [hmovedPilots]; exact congrArg PilotPhase.isReady hready
  | @correlate _ l j _ =>
    have hupdated : ClaimRules (s.updateSweep j.sweep fun x => { x with stage := .merging l }) :=
      hs.updateSweep fun _ _ _ => rfl
    unfold askPort
    dsimp only
    split <;> exact hupdated.of_eq rfl rfl rfl
  | merge => exact hs.mergeEvent _ _ _
  | setup => exact hs.of_eq rfl rfl rfl
  | channelSet => exact hs.of_eq rfl rfl rfl
  | fleetSet => exact hs.of_eq rfl rfl rfl
  | mask => exact hs.of_eq rfl rfl rfl
  | @release _ k st _ hst hsealed =>
    refine hs.setSlot (k := k) none (fun n hn => ?_) rfl rfl rfl
    rw [hst] at hn
    exact hn.1.symm.trans (hn.2.1 hsealed)
  | @read _ k st r hst hsealed =>
    unfold moveToHarvesting
    split
    · refine hs.setSlot (k := k) _ (fun n hn => ?_) rfl rfl rfl
      rw [hst] at hn
      exact hn.of_same rfl (fun _ => .inl hsealed) nofun
    · exact hs.of_eq rfl rfl rfl
  | clear =>
    exact .of_empty rfl (by simp [clearEvent, clearBlocks, clearPilot_pins]) (by simp [clearEvent, clearBlocks])

theorem ClockChange.keeps_claimRules {a b : Event} (h : ClockChange a b) (ha : ClaimRules a.st) : ClaimRules b.st := by
  cases h with
  | change h => exact h.keeps_claimRules ha
  | clock => exact ha.of_eq rfl rfl rfl

theorem StreamChange.keeps_claimRules {a b : Event} (h : StreamChange a b) (ha : ClaimRules a.st) : ClaimRules b.st := by
  cases h with
  | change h => exact h.keeps_claimRules ha
  | stream h => exact ha.of_eq h.sweeps h.pilots h.slots
  | arrive n =>
    refine ha.of_claims ?_ (fun _ _ hp => hp) fun _ _ hk => hk
    rw [Event.change_st, List.map_map]
    refine List.map_congr_left fun x _ => ?_
    simp only [Function.comp, SweepEntry.arrive]
    split <;> rfl
  | slip => exact ha.of_eq rfl rfl rfl

/-- Settles O11: every change keeps the counts; an announcement brings a number that is not in use. -/
theorem pinsAndPendingCountEntries : Obligations.PinsAndPendingCountEntries := by
  intro s t hclaims hstack hfresh hstep
  obtain ⟨c, q, hhappens⟩ := step_happens hstep
  rw [claimInv_iff] at *
  rw [stackInv_iff] at hstack
  have hkept := happens_keeps (P := fun ev => ClaimRules ev.st ∧ StackRules ev.st)
    (fun _ _ h ⟨hc, hk⟩ => ⟨h.keeps_claimRules hc, h.keeps_stackRules hk⟩)
    (fun _ _ h ⟨hc, hk⟩ => ⟨h.keeps_claimRules hc, h.keeps_stackRules hk⟩)
    (fun _ _ h ⟨hc, hk⟩ => ⟨h.keeps_claimRules hc, h.keeps_stackRules hk⟩)
    (fun _ u _ _ hu h ⟨hc, hk⟩ =>
      ⟨h.keeps_claimRules (FreshNumber.of_links (s := { s with pending := q }) hfresh hu) hk hc, h.keeps_stackRules hk⟩)
    ⟨hclaims.of_eq rfl rfl rfl, hstack.of_eq rfl rfl rfl rfl⟩ hhappens
  exact hkept.1

end Sys2Proof.Machine

/-! PROOFS. The Lane Dispatcher's choice (R99, R100). -/

namespace Sys2Proof.Machine

/-! ### The sweep of a grant -/

/-- What the Dispatcher may say of a table: nothing READY, or a READY entry of it that no READY entry comes before. -/
structure Chosen (rank : SweepEntry → SweepEntry → Prop) (l : List SweepEntry) (best : Option SweepEntry) : Prop where
  none_ready : best = none → ∀ x ∈ l, x.stage ≠ .ready
  ready : ∀ e, best = some e → e.stage = .ready
  first : ∀ e, best = some e → ∃ j : Nat, l[j]? = some e ∧
    ∀ (i : Nat) (x : SweepEntry), l[i]? = some x → x.stage = .ready → rank e x ∨ (¬ rank x e ∧ j ≤ i)

theorem getElem?_snoc {α : Type} {l : List α} {a x : α} {i : Nat} (h : (l ++ [a])[i]? = some x) :
    l[i]? = some x ∨ i = l.length ∧ x = a := by
  by_cases hi : i < l.length
  · rw [List.getElem?_append_left hi] at h
    exact .inl h
  · rw [List.getElem?_append_right (by omega), List.getElem?_singleton] at h
    split at h
    · exact .inr ⟨by omega, (Option.some.inj h).symm⟩
    · simp at h

/-- One more entry at the newest end: the choice goes over to it exactly where it comes before the one chosen. -/
theorem Chosen.snoc {rank : SweepEntry → SweepEntry → Prop} {l : List SweepEntry} {best : Option SweepEntry}
    (h : Chosen rank l best) (a : SweepEntry) (hirrefl : ¬ rank a a)
    (hrank : ∀ b ∈ l, a.stage = .ready → b.stage = .ready → (grantBefore a b = true ↔ rank a b))
    (htrans : ∀ b x, b ∈ l → x ∈ l → a.stage = .ready → x.stage = .ready → rank a b → rank b x ∨ ¬ rank x b → rank a x) :
    Chosen rank (l ++ [a]) (grantChoice best a) := by
  have hold : ∀ e j, l[j]? = some e → (a.stage = .ready → rank e a ∨ ¬ rank a e) →
      (∀ (i : Nat) (x : SweepEntry), l[i]? = some x → x.stage = .ready → rank e x ∨ (¬ rank x e ∧ j ≤ i)) →
      ∃ j : Nat, (l ++ [a])[j]? = some e ∧ ∀ (i : Nat) (x : SweepEntry), (l ++ [a])[i]? = some x → x.stage = .ready →
        rank e x ∨ (¬ rank x e ∧ j ≤ i) := by
    intro e j hj hlast hall
    have hlt : j < l.length := (List.getElem?_eq_some_iff.1 hj).1
    refine ⟨j, by rw [List.getElem?_append_left hlt, hj], fun i x hx hready => ?_⟩
    rcases getElem?_snoc hx with hx | ⟨rfl, rfl⟩
    · exact hall i x hx hready
    · exact (hlast hready).imp id fun h => ⟨h, by omega⟩
  unfold grantChoice
  split
  next hready =>
    cases best with
    | none =>
      have hnone := h.none_ready rfl
      refine ⟨by simp, by rintro e ⟨rfl⟩; exact hready, ?_⟩
      rintro e ⟨rfl⟩
      refine ⟨l.length, by simp, fun i x hx hxready => ?_⟩
      rcases getElem?_snoc hx with hx | ⟨rfl, rfl⟩
      · exact (hnone x (List.mem_of_getElem? hx) hxready).elim
      · exact .inr ⟨hirrefl, le_rfl⟩
    | some b =>
      have hbready := h.ready b rfl
      obtain ⟨j, hj, hall⟩ := h.first b rfl
      have hb : b ∈ l := List.mem_of_getElem? hj
      dsimp only
      split
      next hbefore =>
        have hab := (hrank b hb hready hbready).1 hbefore
        refine ⟨by simp, by rintro e ⟨rfl⟩; exact hready, ?_⟩
        rintro e ⟨rfl⟩
        refine ⟨l.length, by simp, fun i x hx hxready => ?_⟩
        rcases getElem?_snoc hx with hx | ⟨rfl, rfl⟩
        · exact .inl (htrans b x hb (List.mem_of_getElem? hx) hready hxready hab
            ((hall i x hx hxready).imp id fun h => h.1))
        · exact .inr ⟨hirrefl, le_rfl⟩
      next hbefore =>
        refine ⟨by simp, by rintro e ⟨rfl⟩; exact hbready, ?_⟩
        rintro e ⟨rfl⟩
        exact hold b j hj (fun hready => .inr fun hab => hbefore ((hrank b hb hready hbready).2 hab)) hall
  next hnot =>
    refine ⟨fun hnone x hx => ?_, h.ready, fun e he => ?_⟩
    · rcases List.mem_append.1 hx with hx | hx
      · exact h.none_ready hnone x hx
      · rwa [List.mem_singleton.1 hx]
    · obtain ⟨j, hj, hall⟩ := h.first e he
      exact hold e j hj (fun hready => (hnot hready).elim) hall

/-- An entry comes before another: an earlier data-complete row counted from a base, then the lower fleet (R100). -/
def grantRank (base : Ssn) (a b : SweepEntry) : Prop :=
  (a.dataRow - base).toNat < (b.dataRow - base).toNat ∨ a.dataRow = b.dataRow ∧ a.fleet < b.fleet

theorem sub_toNat_inj {a b base : Ssn} (h : (a - base).toNat = (b - base).toNat) : a = b := by bv_omega

/-- Within one half-range, the Dispatcher's comparison is an order (R100). -/
theorem grantBefore_iff {base : Ssn} {a b : SweepEntry} (ha : (a.dataRow - base).toNat < 2147483648)
    (hb : (b.dataRow - base).toNat < 2147483648) : grantBefore a b = true ↔ grantRank base a b := by
  have hbefore : ssnBefore a.dataRow b.dataRow = true ↔ (a.dataRow - base).toNat < (b.dataRow - base).toNat := by
    rw [ssnBefore_iff]
    bv_omega
  unfold grantBefore grantRank
  simp only [Bool.or_eq_true, Bool.and_eq_true, decide_eq_true_eq, hbefore]

theorem chooseSweep_chosen {base : Ssn} {l : List SweepEntry}
    (hrange : ∀ x ∈ l, x.stage = .ready → (x.dataRow - base).toNat < 2147483648) :
    Chosen (grantRank base) l (chooseSweep l) := by
  induction l using List.reverseRecOn with
  | nil => exact ⟨by simp, by simp [chooseSweep], by simp [chooseSweep]⟩
  | append_singleton l a ih =>
    have hl := ih fun x hx => hrange x (List.mem_append_left _ hx)
    unfold chooseSweep at hl ⊢
    rw [List.foldl_append, List.foldl_cons, List.foldl_nil]
    refine hl.snoc a (by simp [grantRank]) (fun b hb hready hbready => ?_) fun b x _ _ _ _ hab hbx => ?_
    · exact grantBefore_iff (hrange a (by simp) hready) (hrange b (List.mem_append_left _ hb) hbready)
    · unfold grantRank at *
      have hinj := @sub_toNat_inj b.dataRow x.dataRow base
      rcases hab with hab | ⟨hab, hfleet⟩
      · left
        rcases hbx with (hbx | ⟨hbx, -⟩) | hbx
        · omega
        · rw [← hbx]; exact hab
        · by_contra hnot
          exact hbx (.inl (by omega))
      · rw [hab]
        rcases hbx with (hbx | ⟨hbx, hbxfleet⟩) | hbx
        · exact .inl hbx
        · exact .inr ⟨hbx, by omega⟩
        · by_cases hlt : (b.dataRow - base).toNat < (x.dataRow - base).toNat
          · exact .inl hlt
          · have heq : b.dataRow = x.dataRow := hinj (by
              have : ¬ (x.dataRow - base).toNat < (b.dataRow - base).toNat := fun h => hbx (.inl h)
              omega)
            refine .inr ⟨heq, ?_⟩
            have : ¬ x.fleet < b.fleet := fun h => hbx (.inr ⟨heq.symm, h⟩)
            omega

/-- The Dispatcher chooses a READY entry of the table. -/
theorem chooseSweep_mem {l : List SweepEntry} {e : SweepEntry} (h : chooseSweep l = some e) : e ∈ l ∧ e.stage = .ready := by
  induction l using List.reverseRecOn generalizing e with
  | nil => simp [chooseSweep] at h
  | append_singleton l a ih =>
    unfold chooseSweep at h ih
    rw [List.foldl_append, List.foldl_cons, List.foldl_nil] at h
    unfold grantChoice at h
    have hold : ∀ x, l.foldl grantChoice none = some x → x ∈ l ++ [a] ∧ x.stage = .ready := fun x hx =>
      ⟨List.mem_append_left _ (ih hx).1, (ih hx).2⟩
    split at h
    next hready =>
      split at h
      · obtain rfl := Option.some.inj h; exact ⟨by simp, hready⟩
      next b hb =>
        split at h
        · obtain rfl := Option.some.inj h; exact ⟨by simp, hready⟩
        · obtain rfl := Option.some.inj h; exact hold b hb
    · exact hold e h

theorem chooseLane_idle {s : State} {l : Fin Config.lanes} (h : chooseLane s = some l) : s.lanes[l] = .idle := by
  simpa using List.find?_some h

/-- Settles O30: the choice over the table, entry by entry, and the first IDLE lane. -/
theorem grantOrder : Obligations.GrantOrder := by
  refine ⟨fun sweeps base hrange => ?_, fun s => ⟨?_, fun l hl => ⟨chooseLane_idle hl, fun k hk hidle => ?_⟩⟩⟩
  · have h := chooseSweep_chosen hrange
    refine ⟨fun ⟨x, hx, hready⟩ hnone => h.none_ready hnone x hx hready, fun e he => ⟨h.ready e he, ?_⟩⟩
    obtain ⟨j, hj, hall⟩ := h.first e he
    refine ⟨j, hj, fun i x hx hready => ?_⟩
    have hx' := hall i x hx hready
    unfold grantRank at hx'
    rcases hx' with (hlt | ⟨heq, hfleet⟩) | ⟨hnot, hji⟩
    · exact .inl hlt
    · exact .inr ⟨heq, .inl hfleet⟩
    · by_cases hlt : (e.dataRow - base).toNat < (x.dataRow - base).toNat
      · exact .inl hlt
      · have heq : e.dataRow = x.dataRow := sub_toNat_inj (base := base) (by
          have : ¬ (x.dataRow - base).toNat < (e.dataRow - base).toNat := fun h => hnot (.inl h)
          omega)
        have : ¬ x.fleet < e.fleet := fun h => hnot (.inr ⟨heq.symm, h⟩)
        refine .inr ⟨heq, ?_⟩
        omega
  · rintro ⟨l, hl⟩ hnone
    have := List.find?_eq_none.1 hnone l (List.mem_finRange l)
    exact this (by simpa using hl)
  · obtain ⟨before, after, hsplit, hbefore⟩ := (List.find?_eq_some_iff_append.1 hl).2
    have hmem : k ∈ before ++ l :: after := hsplit ▸ List.mem_finRange k
    have hsorted : (before ++ l :: after).Pairwise (· < ·) := hsplit ▸ List.pairwise_lt_finRange Config.lanes
    rcases List.mem_append.1 hmem with hk' | hk'
    · exact absurd (hbefore k hk') (by simpa using hidle)
    · rw [List.pairwise_append] at hsorted
      rcases List.mem_cons.1 hk' with rfl | hk'
      · omega
      · have := (List.pairwise_cons.1 hsorted.2.1).1 k hk'
        omega

end Sys2Proof.Machine

/-! PROOFS. Lane jobs, sweep entries and merge ports (R72, R98, R112) over every step. -/

namespace Sys2Proof.Machine

/-! ### The invariant by its rules -/

/-- The job of a lane, and the stage its sweep is at. -/
def Lane.work (l : Fin Config.lanes) : Lane → Option (Job × Stage)
  | .idle => none
  | .correlating j => some (j, .correlating l)
  | .mergeWait j _ => some (j, .merging l)
  | .merging j _ => some (j, .merging l)

/-- The lane of a stage. -/
def Stage.lane : Stage → Option (Fin Config.lanes)
  | .correlating l => some l
  | .merging l => some l
  | _ => none

theorem SweepEntry.lane_eq (e : SweepEntry) : e.lane = e.stage.lane := by
  unfold SweepEntry.lane Stage.lane
  cases e.stage <;> rfl

theorem Lane.work_lane {l : Fin Config.lanes} {v : Lane} {j : Job} {stage : Stage} (h : v.work l = some (j, stage)) :
    stage.lane = some l := by
  cases v <;> simp only [Lane.work, Option.some.injEq, Prod.mk.injEq, reduceCtorEq] at h <;>
    (obtain ⟨-, rfl⟩ := h; rfl)

/-- Jobs and entries name each other (R72, R98). -/
structure WorkRules (sweeps : List SweepEntry) (lanes : Fin Config.lanes → Lane) : Prop where
  numbers : (sweeps.map SweepEntry.number).Nodup
  job : ∀ l j stage, (lanes l).work l = some (j, stage) →
    ∃ e ∈ sweeps, e.number = j.sweep ∧ e.stage = stage ∧ e.slot = j.slot
  entry : ∀ e ∈ sweeps, ∀ l, e.stage.lane = some l →
    e.qc ≠ .pending ∧ ∃ j, (lanes l).work l = some (j, e.stage) ∧ j.sweep = e.number

/-- A port is held by the MERGING lane of its slot, and its waiting list holds the slot's MERGE_WAIT lanes (R112). -/
structure PortRules (lanes : Fin Config.lanes → Lane) (ports : Fin Config.stackSlots → MergePort) : Prop where
  waits : ∀ l j sc, lanes l = .mergeWait j sc → l ∈ (ports j.slot).waiting
  merges : ∀ l j sc, lanes l = .merging j sc → (ports j.slot).holder = some l
  nodup : ∀ k, (ports k).waiting.Nodup
  waiting : ∀ k, ∀ l ∈ (ports k).waiting, ∃ j sc, lanes l = .mergeWait j sc ∧ j.slot = k
  free : ∀ k, (ports k).holder = none → (ports k).waiting = []
  holder : ∀ k l, (ports k).holder = some l → ∃ j sc, lanes l = .merging j sc ∧ j.slot = k

/-- The lanes of a state by their numbers. -/
def State.lane (s : State) (l : Fin Config.lanes) : Lane := s.lanes[l]

/-- The merge ports of a state by their slots. -/
def State.port (s : State) (k : Fin Config.stackSlots) : MergePort := s.ports[k]

/-- `LaneInv` with a name for each of its rules. -/
structure LaneRules (s : State) : Prop where
  work : WorkRules s.sweeps s.lane
  ports : PortRules s.lane s.port

theorem laneInv_iff (s : State) : LaneInv s ↔ LaneRules s := by
  constructor
  · rintro ⟨hnumbers, hlanes, hentries, hports⟩
    have hlane : ∀ l, match s.lane l with
        | .idle => ∀ e ∈ s.sweeps, e.lane ≠ some l
        | .correlating j => jobEntry s j (.correlating l)
        | .mergeWait j _ => jobEntry s j (.merging l) ∧ l ∈ (s.port j.slot).waiting
        | .merging j _ => jobEntry s j (.merging l) ∧ (s.port j.slot).holder = some l := hlanes
    refine ⟨⟨hnumbers, fun l j stage hwork => ?_, fun e he l hl => ?_⟩,
      ⟨fun l j sc hl => ?_, fun l j sc hl => ?_, fun k => (hports k).1, fun k => (hports k).2.1, fun k hk => ?_,
        fun k l hk => ?_⟩⟩
    · have h := hlane l
      cases hv : s.lane l with
      | idle => simp [hv, Lane.work] at hwork
      | correlating j' =>
        rw [hv] at h hwork
        obtain ⟨rfl, rfl⟩ : j' = j ∧ Stage.correlating l = stage := by simpa [Lane.work] using hwork
        exact h
      | mergeWait j' sc =>
        rw [hv] at h hwork
        obtain ⟨rfl, rfl⟩ : j' = j ∧ Stage.merging l = stage := by simpa [Lane.work] using hwork
        exact h.1
      | merging j' sc =>
        rw [hv] at h hwork
        obtain ⟨rfl, rfl⟩ : j' = j ∧ Stage.merging l = stage := by simpa [Lane.work] using hwork
        exact h.1
    · have h := hentries e he
      cases hstage : e.stage with
      | waiting => simp [hstage, Stage.lane] at hl
      | ready => simp [hstage, Stage.lane] at hl
      | correlating l' =>
        rw [hstage] at h hl
        obtain rfl : l' = l := by simpa [Stage.lane] using hl
        obtain ⟨hqc, j, hj, hnumber⟩ := h
        refine ⟨hqc, j, ?_, hnumber⟩
        show (s.lanes[l']).work l' = _
        rw [hj]
        rfl
      | merging l' =>
        rw [hstage] at h hl
        obtain rfl : l' = l := by simpa [Stage.lane] using hl
        obtain ⟨hqc, j, hj, hnumber⟩ := h
        refine ⟨hqc, j, ?_, hnumber⟩
        show (s.lanes[l']).work l' = _
        rcases hj with ⟨sc, hj⟩ | ⟨sc, hj⟩ <;> rw [hj] <;> rfl
    · have h := hlane l
      rw [hl] at h
      exact h.2
    · have h := hlane l
      rw [hl] at h
      exact h.2
    · have h := (hports k).2.2
      change (s.ports[k]).holder = none at hk
      rw [hk] at h
      exact h
    · have h := (hports k).2.2
      change (s.ports[k]).holder = some l at hk
      rw [hk] at h
      exact h
  · rintro ⟨⟨hnumbers, hjob, hentry⟩, ⟨hwaits, hmerges, hnodup, hwaiting, hfree, hholder⟩⟩
    refine ⟨hnumbers, fun l => ?_, fun e he => ?_, fun k => ⟨hnodup k, hwaiting k, ?_⟩⟩
    · cases hv : s.lanes[l] with
      | idle =>
        intro e he hl
        rw [SweepEntry.lane_eq] at hl
        obtain ⟨-, j, hj, -⟩ := hentry e he l hl
        change (s.lanes[l]).work l = _ at hj
        rw [hv] at hj
        simp [Lane.work] at hj
      | correlating j => exact hjob l j (.correlating l) (congrArg (Lane.work l) hv)
      | mergeWait j sc => exact ⟨hjob l j (.merging l) (congrArg (Lane.work l) hv), hwaits l j sc hv⟩
      | merging j sc => exact ⟨hjob l j (.merging l) (congrArg (Lane.work l) hv), hmerges l j sc hv⟩
    · cases hstage : e.stage with
      | waiting => trivial
      | ready => trivial
      | correlating l =>
        obtain ⟨hqc, j, hj, hnumber⟩ := hentry e he l (by rw [hstage]; rfl)
        refine ⟨hqc, j, ?_, hnumber⟩
        rw [hstage] at hj
        change (s.lanes[l]).work l = _ at hj
        cases hv : s.lanes[l] <;> simp_all [Lane.work]
      | merging l =>
        obtain ⟨hqc, j, hj, hnumber⟩ := hentry e he l (by rw [hstage]; rfl)
        refine ⟨hqc, j, ?_, hnumber⟩
        rw [hstage] at hj
        change (s.lanes[l]).work l = _ at hj
        unfold Lane.merges
        cases hv : s.lanes[l] <;> simp_all [Lane.work]
    · cases hk : (s.ports[k]).holder with
      | none => exact hfree k hk
      | some l => exact hholder k l hk

/-! ### Jobs and entries -/

namespace WorkRules

variable {l : List SweepEntry} {lanes lanes' : Fin Config.lanes → Lane}

/-- The entries change but for number, slot and stage, and what was settled stays settled; or an entry without a lane
stays without one. -/
theorem map (h : WorkRules l lanes) {f : SweepEntry → SweepEntry} (hnumber : ∀ x ∈ l, (f x).number = x.number)
    (hslot : ∀ x ∈ l, (f x).slot = x.slot)
    (hstage : ∀ x ∈ l, (f x).stage = x.stage ∧ (f x).qc = x.qc ∨ x.stage.lane = none ∧ (f x).stage.lane = none) :
    WorkRules (l.map f) lanes := by
  refine ⟨?_, fun k j stage hwork => ?_, ?_⟩
  · rw [List.map_map, List.map_congr_left (f := SweepEntry.number ∘ f) (g := SweepEntry.number) hnumber]
    exact h.numbers
  · obtain ⟨e, he, hn, hs, hk⟩ := h.job k j stage hwork
    refine ⟨f e, List.mem_map_of_mem he, (hnumber e he).trans hn, ?_, (hslot e he).trans hk⟩
    rcases hstage e he with ⟨hsame, -⟩ | ⟨hnone, -⟩
    · exact hsame.trans hs
    · rw [hs, Lane.work_lane hwork] at hnone; simp at hnone
  · refine List.forall_mem_map.2 fun x hx k hk => ?_
    rcases hstage x hx with ⟨hsame, hqc⟩ | ⟨-, hnone⟩
    · rw [hsame] at hk ⊢
      rw [hqc, hnumber x hx]
      exact h.entry x hx k hk
    · rw [hnone] at hk; simp at hk

/-- An entry comes to a lane, or to another stage of its lane, with a job of its own. -/
theorem assign (h : WorkRules l lanes) {e : SweepEntry} (he : e ∈ l) {k : Fin Config.lanes} {j : Job} {stage : Stage}
    (hlane : e.stage.lane = some k ∨ e.stage.lane = none ∧ lanes k = .idle) (hqc : e.qc ≠ .pending)
    (hothers : ∀ i, i ≠ k → lanes' i = lanes i) (hwork : (lanes' k).work k = some (j, stage)) (hsweep : j.sweep = e.number)
    (hslot : j.slot = e.slot) :
    WorkRules (l.map fun x => if x.number = e.number then { x with stage := stage } else x) lanes' := by
  have hsame : ∀ x ∈ l, x.number = e.number → x = e := fun x hx hn => List.inj_on_of_nodup_map h.numbers hx he hn
  have hnotk : ∀ x ∈ l, x.number ≠ e.number → x.stage.lane ≠ some k := by
    intro x hx hn hk
    obtain ⟨-, jx, hjx, hnx⟩ := h.entry x hx k hk
    rcases hlane with hek | ⟨-, hidle⟩
    · obtain ⟨-, je, hje, hne⟩ := h.entry e he k hek
      rw [hje] at hjx
      have : je = jx := by simpa using (Option.some.inj hjx) |> congrArg Prod.fst
      exact hn (by rw [← hnx, ← hne, this])
    · rw [hidle] at hjx; simp [Lane.work] at hjx
  refine ⟨?_, fun i j' stage' hwork' => ?_, ?_⟩
  · rw [List.map_map, List.map_congr_left (g := SweepEntry.number) fun x _ => by dsimp only [Function.comp]; split <;> rfl]
    exact h.numbers
  · by_cases hi : i = k
    · subst hi
      rw [hwork] at hwork'
      obtain ⟨rfl, rfl⟩ : j = j' ∧ stage = stage' := by simpa using hwork'
      exact ⟨{ e with stage := stage }, List.mem_map.2 ⟨e, he, by simp⟩, hsweep.symm, rfl, hslot.symm⟩
    · rw [hothers i hi] at hwork'
      obtain ⟨x, hx, hn, hs, hk⟩ := h.job i j' stage' hwork'
      have hne : x.number ≠ e.number := fun hn => by
        obtain rfl := hsame x hx hn
        rw [hs, Lane.work_lane hwork'] at hlane
        rcases hlane with hlane | ⟨hlane, -⟩
        · exact hi (Option.some.inj hlane)
        · simp at hlane
      exact ⟨x, List.mem_map.2 ⟨x, hx, by simp [hne]⟩, hn, hs, hk⟩
  · refine List.forall_mem_map.2 fun x hx i hi => ?_
    by_cases hn : x.number = e.number
    · rw [if_pos hn] at hi ⊢
      obtain rfl := hsame x hx hn
      obtain rfl : k = i := Option.some.inj ((Lane.work_lane hwork).symm.trans hi)
      exact ⟨hqc, j, hwork, hsweep⟩
    · rw [if_neg hn] at hi ⊢
      have hik : i ≠ k := fun hik => hnotk x hx hn (hik ▸ hi)
      rw [hothers i hik]
      exact h.entry x hx i hi

/-- An entry leaves the table, and the lane it had is IDLE. -/
theorem remove (h : WorkRules l lanes) {e : SweepEntry} (he : e ∈ l)
    (hlane : ∀ k, e.stage.lane = some k → lanes' k = .idle) (hothers : ∀ i, e.stage.lane ≠ some i → lanes' i = lanes i) :
    WorkRules (l.filter fun x => decide (x.number ≠ e.number)) lanes' := by
  refine ⟨h.numbers.sublist (List.filter_sublist.map _), fun i j stage hwork => ?_, fun x hx i hi => ?_⟩
  · have hi : e.stage.lane ≠ some i := fun hi => by rw [hlane i hi] at hwork; simp [Lane.work] at hwork
    rw [hothers i hi] at hwork
    obtain ⟨x, hx, hn, hs, hk⟩ := h.job i j stage hwork
    refine ⟨x, List.mem_filter.2 ⟨hx, ?_⟩, hn, hs, hk⟩
    simp only [decide_eq_true_eq]
    intro hne
    obtain rfl := List.inj_on_of_nodup_map h.numbers hx he hne
    exact hi (hs ▸ Lane.work_lane hwork)
  · obtain ⟨hx, hne⟩ := List.mem_filter.1 hx
    obtain ⟨hqc, j, hj, hn⟩ := h.entry x hx i hi
    have hie : e.stage.lane ≠ some i := fun hie => by
      obtain ⟨-, j', hj', hn'⟩ := h.entry e he i hie
      rw [hj] at hj'
      have : j = j' := by simpa using (Option.some.inj hj') |> congrArg Prod.fst
      simp only [decide_eq_true_eq] at hne
      exact hne (by rw [← hn, ← hn', this])
    rw [hothers i hie]
    exact ⟨hqc, j, hj, hn⟩

/-- A lane goes on with its job at the same stage. -/
theorem of_work (h : WorkRules l lanes) (hwork : ∀ i, (lanes' i).work i = (lanes i).work i) : WorkRules l lanes' :=
  ⟨h.numbers, fun i j stage hj => h.job i j stage (hwork i ▸ hj), fun e he i hi => by rw [hwork i]; exact h.entry e he i hi⟩

/-- A new entry without a lane. -/
theorem add (h : WorkRules l lanes) {e : SweepEntry} (hfresh : ∀ x ∈ l, x.number ≠ e.number)
    (hlane : e.stage.lane = none) : WorkRules (l ++ [e]) lanes := by
  refine ⟨?_, fun i j stage hj => ?_, fun x hx i hi => ?_⟩
  · rw [List.map_append]
    refine List.nodup_append.2 ⟨h.numbers, by simp, ?_⟩
    intro n hn m hm
    obtain ⟨x, hx, rfl⟩ := List.mem_map.1 hn
    obtain rfl : m = e.number := by simpa using hm
    exact hfresh x hx
  · obtain ⟨x, hx, hrest⟩ := h.job i j stage hj
    exact ⟨x, List.mem_append_left _ hx, hrest⟩
  · rcases List.mem_append.1 hx with hx | hx
    · exact h.entry x hx i hi
    · rw [List.mem_singleton.1 hx, hlane] at hi; simp at hi

end WorkRules

/-! ### Merge ports -/

namespace PortRules

variable {lanes lanes' : Fin Config.lanes → Lane} {ports ports' : Fin Config.stackSlots → MergePort}

/-- A lane that is neither in MERGE_WAIT nor MERGING. -/
def Aside (v : Lane) : Prop := ∀ j sc, v ≠ .mergeWait j sc ∧ v ≠ .merging j sc

theorem aside_idle : Aside .idle := fun _ _ => ⟨nofun, nofun⟩

theorem aside_correlating (j : Job) : Aside (.correlating j) := fun _ _ => ⟨nofun, nofun⟩

/-- A lane that is aside of the ports goes aside again. -/
theorem of_aside (h : PortRules lanes ports) {l : Fin Config.lanes} (hbefore : Aside (lanes l)) (hafter : Aside (lanes' l))
    (hothers : ∀ i, i ≠ l → lanes' i = lanes i) : PortRules lanes' ports := by
  refine ⟨fun i j sc hi => ?_, fun i j sc hi => ?_, h.nodup, fun k i hi => ?_, h.free, fun k i hi => ?_⟩
  · by_cases hil : i = l
    · subst hil; exact ((hafter j sc).1 hi).elim
    · exact h.waits i j sc (hothers i hil ▸ hi)
  · by_cases hil : i = l
    · subst hil; exact ((hafter j sc).2 hi).elim
    · exact h.merges i j sc (hothers i hil ▸ hi)
  · obtain ⟨j, sc, hj, hk⟩ := h.waiting k i hi
    have hil : i ≠ l := fun hil => by subst hil; exact (hbefore j sc).1 hj
    exact ⟨j, sc, (hothers i hil).trans hj, hk⟩
  · obtain ⟨j, sc, hj, hk⟩ := h.holder k i hi
    have hil : i ≠ l := fun hil => by subst hil; exact (hbefore j sc).2 hj
    exact ⟨j, sc, (hothers i hil).trans hj, hk⟩

/-- A lane takes the free port of its job's slot. -/
theorem take (h : PortRules lanes ports) {l : Fin Config.lanes} {j : Job} {sc : Scratch} (hbefore : Aside (lanes l))
    (hfree : (ports j.slot).holder = none) (hlane : lanes' l = .merging j sc) (hothers : ∀ i, i ≠ l → lanes' i = lanes i)
    (hport : ports' j.slot = { ports j.slot with holder := some l }) (hports : ∀ k, k ≠ j.slot → ports' k = ports k) :
    PortRules lanes' ports' := by
  have hwait : ∀ k, (ports' k).waiting = (ports k).waiting := fun k => by
    by_cases hk : k = j.slot
    · rw [hk, hport]
    · rw [hports k hk]
  refine ⟨fun i j' sc' hi => ?_, fun i j' sc' hi => ?_, fun k => hwait k ▸ h.nodup k, fun k i hi => ?_, fun k hk => ?_,
    fun k i hi => ?_⟩
  · have hil : i ≠ l := fun hil => by rw [hil, hlane] at hi; simp at hi
    rw [hwait]
    exact h.waits i j' sc' (hothers i hil ▸ hi)
  · by_cases hil : i = l
    · rw [hil, hlane] at hi
      obtain ⟨rfl, -⟩ : j = j' ∧ sc = sc' := by simpa using hi
      rw [hport, hil]
    · have hold := h.merges i j' sc' (hothers i hil ▸ hi)
      rw [hports]
      · exact hold
      · intro hk; rw [hk, hfree] at hold; simp at hold
  · rw [hwait] at hi
    obtain ⟨j', sc', hj', hk⟩ := h.waiting k i hi
    have hil : i ≠ l := fun hil => by subst hil; exact (hbefore j' sc').1 hj'
    exact ⟨j', sc', (hothers i hil).trans hj', hk⟩
  · rw [hwait]
    by_cases hkj : k = j.slot
    · exact hkj ▸ h.free _ hfree
    · exact h.free k (hports k hkj ▸ hk)
  · by_cases hkj : k = j.slot
    · rw [hkj, hport] at hi
      obtain rfl : l = i := by simpa using hi
      exact ⟨j, sc, hlane, hkj.symm⟩
    · rw [hports k hkj] at hi
      obtain ⟨j', sc', hj', hk⟩ := h.holder k i hi
      have hil : i ≠ l := fun hil => by subst hil; exact (hbefore j' sc').2 hj'
      exact ⟨j', sc', (hothers i hil).trans hj', hk⟩

/-- A lane joins the waiting list of a port that is held. -/
theorem wait (h : PortRules lanes ports) {l : Fin Config.lanes} {j : Job} {sc : Scratch} (hbefore : Aside (lanes l))
    (hheld : (ports j.slot).holder ≠ none) (hlane : lanes' l = .mergeWait j sc)
    (hothers : ∀ i, i ≠ l → lanes' i = lanes i)
    (hport : ports' j.slot = { ports j.slot with waiting := (ports j.slot).waiting ++ [l] })
    (hports : ∀ k, k ≠ j.slot → ports' k = ports k) : PortRules lanes' ports' := by
  have hholder : ∀ k, (ports' k).holder = (ports k).holder := fun k => by
    by_cases hk : k = j.slot
    · rw [hk, hport]
    · rw [hports k hk]
  have hmem : ∀ k i, i ∈ (ports' k).waiting ↔ i ∈ (ports k).waiting ∨ k = j.slot ∧ i = l := fun k i => by
    by_cases hk : k = j.slot
    · rw [hk, hport]; simp
    · rw [hports k hk]; simp [hk]
  refine ⟨fun i j' sc' hi => ?_, fun i j' sc' hi => ?_, fun k => ?_, fun k i hi => ?_, fun k hk => ?_, fun k i hi => ?_⟩
  · rw [hmem]
    by_cases hil : i = l
    · rw [hil, hlane] at hi
      obtain ⟨rfl, -⟩ : j = j' ∧ sc = sc' := by simpa using hi
      exact .inr ⟨rfl, hil⟩
    · exact .inl (h.waits i j' sc' (hothers i hil ▸ hi))
  · have hil : i ≠ l := fun hil => by rw [hil, hlane] at hi; simp at hi
    rw [hholder]
    exact h.merges i j' sc' (hothers i hil ▸ hi)
  · by_cases hk : k = j.slot
    · rw [hk, hport]
      refine List.nodup_append.2 ⟨h.nodup _, by simp, fun a ha b hb => ?_⟩
      rw [List.mem_singleton.1 hb]
      rintro rfl
      obtain ⟨j', sc', hj', -⟩ := h.waiting _ a ha
      exact (hbefore j' sc').1 hj'
    · rw [hports k hk]; exact h.nodup k
  · rcases (hmem k i).1 hi with hi | ⟨hk, rfl⟩
    · obtain ⟨j', sc', hj', hk⟩ := h.waiting k i hi
      have hil : i ≠ l := fun hil => by subst hil; exact (hbefore j' sc').1 hj'
      exact ⟨j', sc', (hothers i hil).trans hj', hk⟩
    · exact ⟨j, sc, hlane, hk.symm⟩
  · rw [hholder] at hk
    have hkj : k ≠ j.slot := fun hkj => hheld (hkj ▸ hk)
    rw [hports k hkj]
    exact h.free k hk
  · rw [hholder] at hi
    obtain ⟨j', sc', hj', hk⟩ := h.holder k i hi
    have hil : i ≠ l := fun hil => by subst hil; exact (hbefore j' sc').2 hj'
    exact ⟨j', sc', (hothers i hil).trans hj', hk⟩

/-- A MERGING lane is IDLE, and its port is free with nobody waiting, or held by the first lane that waited. -/
theorem pass (h : PortRules lanes ports) {l : Fin Config.lanes} {j : Job} {sc : Scratch} (hbefore : lanes l = .merging j sc)
    (hidle : lanes' l = .idle) (hports : ∀ k, k ≠ j.slot → ports' k = ports k)
    (hpass : (ports j.slot).waiting = [] ∧ ports' j.slot = { holder := none, waiting := [] } ∧
        (∀ i, i ≠ l → lanes' i = lanes i) ∨
      ∃ first rest jf scf, (ports j.slot).waiting = first :: rest ∧
        ports' j.slot = { holder := some first, waiting := rest } ∧ lanes first = .mergeWait jf scf ∧
        lanes' first = .merging jf scf ∧ ∀ i, i ≠ l → i ≠ first → lanes' i = lanes i) : PortRules lanes' ports' := by
  have hholds : (ports j.slot).holder = some l := h.merges l j sc hbefore
  -- A lane at another port is not the one that held this port.
  have hnotl : ∀ k i, k ≠ j.slot → i ∈ (ports k).waiting ∨ (ports k).holder = some i → i ≠ l := by
    rintro k i hk hi rfl
    rcases hi with hi | hi
    · obtain ⟨j', sc', hj', -⟩ := h.waiting k i hi
      rw [hbefore] at hj'; simp at hj'
    · obtain ⟨j', sc', hj', hslot⟩ := h.holder k i hi
      rw [hbefore] at hj'
      obtain ⟨rfl, -⟩ : j = j' ∧ sc = sc' := by simpa using hj'
      exact hk hslot.symm
  rcases hpass with ⟨hempty, hport, hothers⟩ | ⟨first, rest, jf, scf, hwaiting, hport, hfirst, hfirst', hothers⟩
  · refine ⟨fun i j' sc' hi => ?_, fun i j' sc' hi => ?_, fun k => ?_, fun k i hi => ?_, fun k hk => ?_,
      fun k i hi => ?_⟩
    · have hil : i ≠ l := fun hil => by rw [hil, hidle] at hi; simp at hi
      have hwait := h.waits i j' sc' (hothers i hil ▸ hi)
      rw [hports]
      · exact hwait
      · intro hk; rw [hk, hempty] at hwait; simp at hwait
    · have hil : i ≠ l := fun hil => by rw [hil, hidle] at hi; simp at hi
      have hold := h.merges i j' sc' (hothers i hil ▸ hi)
      rw [hports]
      · exact hold
      · intro hk; rw [hk, hholds] at hold; exact hil (Option.some.inj hold).symm
    · by_cases hk : k = j.slot
      · rw [hk, hport]; exact List.nodup_nil
      · rw [hports k hk]; exact h.nodup k
    · by_cases hk : k = j.slot
      · rw [hk, hport] at hi; simp at hi
      · rw [hports k hk] at hi
        rw [hothers i (hnotl k i hk (.inl hi))]
        exact h.waiting k i hi
    · by_cases hkj : k = j.slot
      · rw [hkj, hport]
      · rw [hports k hkj] at hk ⊢; exact h.free k hk
    · by_cases hk : k = j.slot
      · rw [hk, hport] at hi; simp at hi
      · rw [hports k hk] at hi
        rw [hothers i (hnotl k i hk (.inr hi))]
        exact h.holder k i hi
  · have hslot : jf.slot = j.slot := by
      obtain ⟨j', sc', hj', hk⟩ := h.waiting j.slot first (by rw [hwaiting]; simp)
      rw [hfirst] at hj'
      obtain ⟨rfl, -⟩ : jf = j' ∧ scf = sc' := by simpa using hj'
      exact hk
    have hnodup := h.nodup j.slot
    rw [hwaiting, List.nodup_cons] at hnodup
    refine ⟨fun i j' sc' hi => ?_, fun i j' sc' hi => ?_, fun k => ?_, fun k i hi => ?_, fun k hk => ?_,
      fun k i hi => ?_⟩
    · have hil : i ≠ l := fun hil => by rw [hil, hidle] at hi; simp at hi
      have hif : i ≠ first := fun hif => by rw [hif, hfirst'] at hi; simp at hi
      have hwait := h.waits i j' sc' (hothers i hil hif ▸ hi)
      by_cases hk : j'.slot = j.slot
      · rw [hk, hwaiting] at hwait
        rw [hk, hport]
        exact (List.mem_cons.1 hwait).resolve_left hif
      · rw [hports _ hk]; exact hwait
    · by_cases hif : i = first
      · rw [hif, hfirst'] at hi
        obtain ⟨rfl, -⟩ : jf = j' ∧ scf = sc' := by simpa using hi
        rw [hslot, hport, hif]
      · have hil : i ≠ l := fun hil => by rw [hil, hidle] at hi; simp at hi
        have hold := h.merges i j' sc' (hothers i hil hif ▸ hi)
        rw [hports]
        · exact hold
        · intro hk; rw [hk, hholds] at hold; exact hil (Option.some.inj hold).symm
    · by_cases hk : k = j.slot
      · rw [hk, hport]; exact hnodup.2
      · rw [hports k hk]; exact h.nodup k
    · by_cases hk : k = j.slot
      · rw [hk, hport] at hi
        have hif : i ≠ first := fun hif => hnodup.1 (hif ▸ hi)
        obtain ⟨j', sc', hj', hslot'⟩ := h.waiting j.slot i (by rw [hwaiting]; exact List.mem_cons_of_mem _ hi)
        have hil : i ≠ l := fun hil => by rw [hil, hbefore] at hj'; simp at hj'
        exact ⟨j', sc', (hothers i hil hif).trans hj', hslot'.trans hk.symm⟩
      · rw [hports k hk] at hi
        obtain ⟨j', sc', hj', hslot'⟩ := h.waiting k i hi
        have hif : i ≠ first := fun hif => by
          rw [hif, hfirst] at hj'
          obtain ⟨rfl, -⟩ : jf = j' ∧ scf = sc' := by simpa using hj'
          exact hk (hslot'.symm.trans hslot)
        exact ⟨j', sc', (hothers i (hnotl k i hk (.inl hi)) hif).trans hj', hslot'⟩
    · by_cases hkj : k = j.slot
      · rw [hkj, hport] at hk; simp at hk
      · rw [hports k hkj] at hk ⊢; exact h.free k hk
    · by_cases hk : k = j.slot
      · rw [hk, hport] at hi
        obtain rfl : first = i := by simpa using hi
        exact ⟨jf, scf, hfirst', hslot.trans hk.symm⟩
      · rw [hports k hk] at hi
        obtain ⟨j', sc', hj', hslot'⟩ := h.holder k i hi
        have hif : i ≠ first := fun hif => by rw [hif, hfirst] at hj'; simp at hj'
        exact ⟨j', sc', (hothers i (hnotl k i hk (.inr hi)) hif).trans hj', hslot'⟩

end PortRules

end Sys2Proof.Machine

/-! PROOFS. Every step keeps lane jobs, sweep entries and merge ports naming one another (R72, R98, R112). -/

namespace Sys2Proof.Machine

theorem State.setLane_lane (s : State) (l i : Fin Config.lanes) (v : Lane) :
    (s.setLane l v).lane i = if l = i then v else s.lane i :=
  vector_set_getElem s.lanes l i v

theorem State.setPort_port (s : State) (k i : Fin Config.stackSlots) (p : MergePort) :
    (s.setPort k p).port i = if k = i then p else s.port i :=
  vector_set_getElem s.ports k i p

namespace LaneRules

variable {s t : State}

theorem of_eq (h : LaneRules s) (hsweeps : t.sweeps = s.sweeps) (hlanes : t.lanes = s.lanes) (hports : t.ports = s.ports) :
    LaneRules t := by
  have hlane : t.lane = s.lane := funext fun l => by unfold State.lane; rw [hlanes]
  have hport : t.port = s.port := funext fun k => by unfold State.port; rw [hports]
  exact ⟨by rw [hsweeps, hlane]; exact h.work, by rw [hlane, hport]; exact h.ports⟩

theorem distinct (h : LaneRules s) : DistinctNumbers s := h.work.numbers

end LaneRules

/-! ### Resolution -/

/-- The lanes after a resolution: the lane of a CORRELATING entry is IDLE (R117). -/
theorem State.resolvedAs_lane (s : State) (e : SweepEntry) (out : SweepOutcome) (i : Fin Config.lanes) :
    (s.resolvedAs e out).lane i = if e.stage = .correlating i then .idle else s.lane i := by
  have hset : ∀ s1 : State, s1.lanes = s.lanes →
      (match e.stage with | .correlating l => s1.setLane l .idle | _ => s1).lane i =
        if e.stage = .correlating i then .idle else s.lane i := by
    intro s1 h1
    cases e.stage with
    | correlating l =>
      dsimp only
      rw [State.setLane_lane]
      unfold State.lane
      rw [h1]
      simp only [Stage.correlating.injEq]
    | _ =>
      dsimp only
      unfold State.lane
      rw [h1, if_neg nofun]
  unfold State.resolvedAs
  dsimp only
  cases s.slots[e.slot] with
  | none => exact hset _ rfl
  | some st => cases hd : st.drainsWith <;> (dsimp only; rw [hd]; exact hset _ rfl)

theorem State.resolvedAs_port (s : State) (e : SweepEntry) (out : SweepOutcome) :
    (s.resolvedAs e out).port = s.port := by
  unfold State.resolvedAs State.port
  dsimp only
  cases e.stage <;> split <;> (try split) <;> rfl

theorem LaneRules.entry_lane {s : State} (h : LaneRules s) {e : SweepEntry} (he : e ∈ s.sweeps) {l : Fin Config.lanes}
    (hstage : e.stage = .correlating l) : ∃ j, s.lane l = .correlating j := by
  obtain ⟨-, j, hj, -⟩ := h.work.entry e he l (by rw [hstage]; rfl)
  rw [hstage] at hj
  cases hv : s.lane l <;> simp_all [Lane.work]

/-- A droppable entry is resolved (R76, R117). -/
theorem LaneRules.resolve {ev : Event} (h : LaneRules ev.st) {out : SweepOutcome} (hout : out ≠ .droppedClear)
    {counts : Option JobCounts} {e : SweepEntry} (he : e ∈ ev.st.sweeps) (hdroppable : e.isDroppable = true) :
    LaneRules (resolve out counts e ev).st := by
  rw [resolve_eq hout _ _ _ h.distinct]
  have hlane := State.resolvedAs_lane ev.st e out
  constructor
  · rw [State.resolvedAs_sweeps]
    refine h.work.remove he (fun k hk => ?_) fun i hi => ?_
    · rw [hlane, if_pos]
      cases hstage : e.stage with
      | correlating l => rw [hstage] at hk; rw [Option.some.inj hk]
      | merging l => simp [SweepEntry.isDroppable, hstage, Stage.isMerging] at hdroppable
      | _ => rw [hstage] at hk; simp [Stage.lane] at hk
    · rw [hlane, if_neg]
      rintro hstage
      rw [hstage] at hi
      exact hi rfl
  · show PortRules (ev.st.resolvedAs e out).lane (ev.st.resolvedAs e out).port
    rw [State.resolvedAs_port]
    cases hstage : e.stage with
    | correlating l =>
      obtain ⟨j, hj⟩ := h.entry_lane he hstage
      refine h.ports.of_aside (l := l) (by rw [hj]; exact PortRules.aside_correlating j) ?_ fun i hi => ?_
      · rw [hlane, if_pos hstage]; exact PortRules.aside_idle
      · rw [hlane, if_neg]; rw [hstage]; simp [Ne.symm hi]
    | _ =>
      have : (ev.st.resolvedAs e out).lane = ev.st.lane := funext fun i => by rw [hlane, if_neg (by simp [hstage])]
      rw [this]
      exact h.ports

/-! ### Changes of every event -/

/-- An entry that can be settled has no lane (R72). -/
theorem LaneRules.unsettled_lane {s : State} (h : LaneRules s) (hs : SweepInv s) {e : SweepEntry} (he : e ∈ s.sweeps)
    (hpending : e.qc = .pending ∨ e.timer ≠ none) : e.stage.lane = none := by
  have hqc : e.qc = .pending := hpending.elim id fun ht => ((hs e he).1.1 (Option.isSome_iff_ne_none.2 ht)).2
  by_contra hsome
  obtain ⟨l, hl⟩ := Option.ne_none_iff_exists'.1 hsome
  exact (h.work.entry e he l hl).1 hqc

theorem Stage.not_merging_of_lane {stage : Stage} (h : stage.lane = none) : stage.isMerging = false := by
  cases stage <;> simp_all [Stage.lane, Stage.isMerging]

theorem SweepEntry.settle_lane {e : SweepEntry} (h : e.stage.lane = none) (qc : QcOutcome) (fails : FailSet) :
    (e.settle qc fails).stage.lane = none := by
  unfold SweepEntry.settle
  dsimp only
  split
  · rfl
  · exact h

theorem SweepEntry.arrive_stage (s : State) (n : Ssn) (e : SweepEntry) :
    (e.arrive s n).stage = e.stage ∧ (e.arrive s n).qc = e.qc ∨
      e.stage.lane = none ∧ (e.arrive s n).stage.lane = none := by
  unfold SweepEntry.arrive
  split
  · by_cases hwaiting : e.stage = .waiting
    · refine .inr ⟨by rw [hwaiting]; rfl, ?_⟩
      dsimp only
      split
      · rfl
      · rw [hwaiting]; rfl
    · exact .inl ⟨by simp [hwaiting], rfl⟩
  · exact .inl ⟨rfl, rfl⟩

theorem Change.keeps_laneRules {a b : Event} (h : Change a b) (hs : SweepInv a.st) (ha : LaneRules a.st) :
    LaneRules b.st := by
  cases h with
  | cause => exact ha
  | flush => exact ha.of_eq (by simp) (by simp) (by simp)
  | links h => exact ha.of_eq h.sweeps h.lanes h.ports
  | pilots => exact ha.of_eq rfl rfl rfl
  | latches => exact ha.of_eq rfl rfl rfl
  | @settle e qc fails he hpending =>
    obtain ⟨ev1, hst, -, h⟩ := settleSweep_cases e (e.settle qc fails) a
    have hnone := ha.unsettled_lane hs he hpending
    have hnew := SweepEntry.settle_lane hnone qc fails
    have hupdated : LaneRules ev1.st := by
      rw [hst]
      refine ⟨ha.work.map (fun x _ => ?_) (fun x hx => ?_) fun x hx => ?_, ha.ports⟩
      · split
        next hn => exact hn.symm
        · rfl
      · split
        next hn => rw [ha.distinct.eq_of_number hx he hn]; rfl
        · rfl
      · split
        next hn => rw [ha.distinct.eq_of_number hx he hn]; exact .inr ⟨hnone, hnew⟩
        · exact .inl ⟨rfl, rfl⟩
    rcases h with h | ⟨-, h⟩ <;> rw [h]
    · exact hupdated
    · refine hupdated.resolve (out := .rejectedQc) nofun (by rw [hst]; exact mem_updateSweep he) ?_
      simp [SweepEntry.isDroppable, Stage.not_merging_of_lane hnew]
  | resolve hdroppable hout he => exact ha.resolve hout he hdroppable
  | sealed =>
    rw [sealSlot_eq]
    unfold State.sealedAs
    dsimp only
    split <;> exact ha.of_eq rfl rfl rfl
  | linger => exact ha.of_eq rfl rfl rfl
  | @grant e l hsweep hlane =>
    obtain ⟨he, hready⟩ := chooseSweep_mem hsweep
    have hidle : a.st.lane l = .idle := chooseLane_idle hlane
    have hproceeds := ((hs e he).2.1 hready).2
    have hlanes : ∀ i, (grantTo e l a.st).lane i = if l = i then .correlating (jobOf a.st e) else a.st.lane i :=
      fun i => State.setLane_lane (a.st.updateSweep e.number fun x => { x with stage := .correlating l }) l i _
    have hothers : ∀ i, i ≠ l → (grantTo e l a.st).lane i = a.st.lane i := fun i hi => by
      rw [hlanes, if_neg (Ne.symm hi)]
    refine ⟨ha.work.assign he (k := l) (j := jobOf a.st e) (.inr ⟨by rw [hready]; rfl, hidle⟩) ?_ hothers ?_ rfl rfl,
      ha.ports.of_aside (l := l) (by rw [hidle]; exact PortRules.aside_idle) ?_ hothers⟩
    · intro hqc
      simp [SweepEntry.proceeds, hqc, qcProceeds] at hproceeds
    · rw [Event.change_st, hlanes, if_pos rfl]; rfl
    · rw [Event.change_st, hlanes, if_pos rfl]; exact PortRules.aside_correlating _

/-! ### Commands of their own -/

/-- At its CORRELATE completion a lane takes its slot's port or waits for it (R111, R112). -/
theorem LaneRules.ask {s : State} (h : LaneRules s) {l : Fin Config.lanes} {j : Job} (hlane : s.lanes[l] = .correlating j)
    (sc : Scratch) : LaneRules (askPort l j sc (s.updateSweep j.sweep fun x => { x with stage := .merging l })) := by
  change s.lane l = _ at hlane
  obtain ⟨e, he, hnumber, hstage, hslot⟩ := h.work.job l j (.correlating l) (by rw [hlane]; rfl)
  have helane : e.stage.lane = some l := by rw [hstage]; rfl
  have hqc := (h.work.entry e he l helane).1
  have haside : PortRules.Aside (s.lane l) := by rw [hlane]; exact PortRules.aside_correlating j
  have hwork : ∀ {lanes' : Fin Config.lanes → Lane}, (∀ i, i ≠ l → lanes' i = s.lane i) →
      (lanes' l).work l = some (j, .merging l) →
      WorkRules (s.updateSweep j.sweep fun x => { x with stage := .merging l }).sweeps lanes' := fun hothers hl => by
    rw [← hnumber]
    exact h.work.assign he (.inl helane) hqc hothers hl hnumber.symm hslot.symm
  generalize hu : s.updateSweep j.sweep (fun x => { x with stage := .merging l }) = u at hwork
  have hulane : u.lane = s.lane := by rw [← hu]; rfl
  have huport : u.port = s.port := by rw [← hu]; rfl
  have hlanes : ∀ (p : MergePort) (v : Lane) (i : Fin Config.lanes),
      ((u.setPort j.slot p).setLane l v).lane i = if l = i then v else s.lane i := fun p v i => by
    rw [← hulane]; exact State.setLane_lane (u.setPort j.slot p) l i v
  have hports : ∀ (p : MergePort) (v : Lane) (k : Fin Config.stackSlots),
      ((u.setPort j.slot p).setLane l v).port k = if j.slot = k then p else s.port k := fun p v k => by
    rw [← huport]; exact State.setPort_port u j.slot k p
  have hothers : ∀ (p : MergePort) (v : Lane) (i : Fin Config.lanes), i ≠ l →
      ((u.setPort j.slot p).setLane l v).lane i = s.lane i := fun p v i hi => by rw [hlanes, if_neg (Ne.symm hi)]
  have hport : u.ports[j.slot] = s.port j.slot := congrFun huport j.slot
  unfold askPort
  dsimp only
  rw [hport]
  split
  next hfree =>
    refine ⟨hwork (hothers _ _) (by rw [hlanes, if_pos rfl]; rfl), h.ports.take (l := l) (j := j) (sc := sc) haside hfree.1
      (by rw [hlanes, if_pos rfl]) (hothers _ _) (by rw [hports, if_pos rfl]) fun k hk => ?_⟩
    rw [hports, if_neg (Ne.symm hk)]
  next hheld =>
    refine ⟨hwork (hothers _ _) (by rw [hlanes, if_pos rfl]; rfl), h.ports.wait (l := l) (j := j) (sc := sc) haside ?_
      (by rw [hlanes, if_pos rfl]) (hothers _ _) (by rw [hports, if_pos rfl]) fun k hk => ?_⟩
    · exact fun hnone => hheld ⟨hnone, h.ports.free _ hnone⟩
    · rw [hports, if_neg (Ne.symm hk)]

theorem applyMerge_lanes (j : Job) (sc : Scratch) (s : State) : (applyMerge j sc s).lane = s.lane ∧
    (applyMerge j sc s).port = s.port := by
  unfold applyMerge
  split <;> exact ⟨rfl, rfl⟩

/-- Behind the resolution of its sweep a MERGING lane is IDLE, and its port goes to the first lane that waits. -/
theorem LaneRules.passed {s u : State} (h : LaneRules s) {l : Fin Config.lanes} {j : Job} {sc : Scratch}
    (hlane : s.lane l = .merging j sc) {e : SweepEntry} (he : e ∈ s.sweeps) (hstage : e.stage = .merging l)
    (hsweeps : u.sweeps = s.sweeps.filter fun x => decide (x.number ≠ e.number)) (hlanes : u.lane = s.lane)
    (hports : u.port = s.port) : LaneRules (passPort j.slot (u.setLane l .idle)) := by
  have hset : ∀ i, (u.setLane l .idle).lane i = if l = i then .idle else s.lane i := fun i => by
    rw [State.setLane_lane, hlanes]
  have hidle : ∀ k, e.stage.lane = some k → (u.setLane l .idle).lane k = .idle := fun k hk => by
    rw [hstage] at hk
    rw [hset, if_pos (Option.some.inj hk)]
  have hothers : ∀ i, e.stage.lane ≠ some i → (u.setLane l .idle).lane i = s.lane i := fun i hi => by
    rw [hstage] at hi
    rw [hset, if_neg fun hli => hi (congrArg some hli)]
  have hwork := h.work.remove he hidle hothers
  rw [← hsweeps] at hwork
  have hport : (u.setLane l .idle).ports[j.slot] = s.port j.slot := congrFun hports j.slot
  have hwaiting : (s.port j.slot).waiting = [] ∨ ∃ first rest, (s.port j.slot).waiting = first :: rest := by
    cases (s.port j.slot).waiting with
    | nil => exact .inl rfl
    | cons first rest => exact .inr ⟨first, rest, rfl⟩
  unfold passPort
  rw [hport]
  rcases hwaiting with hempty | ⟨first, rest, hwait⟩
  · rw [hempty]
    refine ⟨hwork, h.ports.pass (l := l) (j := j) (sc := sc) hlane ?_ ?_ (.inl ⟨hempty, ?_, fun i hi => ?_⟩)⟩
    · exact (hset l).trans (if_pos rfl)
    · exact fun k hk => (State.setPort_port (u.setLane l .idle) j.slot k _).trans
        ((if_neg (Ne.symm hk)).trans (congrFun hports k))
    · exact (State.setPort_port (u.setLane l .idle) j.slot j.slot _).trans (if_pos rfl)
    · exact (hset i).trans (if_neg (Ne.symm hi))
  · obtain ⟨jf, scf, hfirst, -⟩ := h.ports.waiting j.slot first (by rw [hwait]; simp)
    have hne : l ≠ first := fun hlf => by rw [← hlf, hlane] at hfirst; simp at hfirst
    have hfirst' : (u.setLane l .idle).lanes[first] = .mergeWait jf scf :=
      ((hset first).trans (if_neg hne)).trans hfirst
    rw [hwait]
    dsimp only
    unfold beginMerge
    rw [State.setPort_lanes, hfirst']
    dsimp only
    have hlast : ∀ i, (((u.setLane l .idle).setPort j.slot { holder := some first, waiting := rest }).setLane first
        (.merging jf scf)).lane i = if first = i then .merging jf scf else (u.setLane l .idle).lane i :=
      State.setLane_lane ((u.setLane l .idle).setPort j.slot { holder := some first, waiting := rest }) first
        (v := .merging jf scf)
    refine ⟨hwork.of_work fun i => ?_, h.ports.pass (l := l) (j := j) (sc := sc) hlane ?_ ?_
      (.inr ⟨first, rest, jf, scf, hwait, ?_, hfirst, ?_, fun i hil hif => ?_⟩)⟩
    · rw [hlast]
      split
      next hi => subst hi; rw [show (u.setLane l .idle).lane first = .mergeWait jf scf from hfirst']; rfl
      · rfl
    · rw [hlast, if_neg (Ne.symm hne)]; exact (hset l).trans (if_pos rfl)
    · exact fun k hk => (State.setPort_port (u.setLane l .idle) j.slot k _).trans
        ((if_neg (Ne.symm hk)).trans (congrFun hports k))
    · exact (State.setPort_port (u.setLane l .idle) j.slot j.slot _).trans (if_pos rfl)
    · rw [hlast, if_pos rfl]
    · rw [hlast, if_neg (Ne.symm hif)]; exact (hset i).trans (if_neg (Ne.symm hil))

/-- The sweep of a merged job leaves the table MERGED (R115). -/
theorem resolveMerged_of_mem {s : State} (hdistinct : DistinctNumbers s) {e : SweepEntry} (he : e ∈ s.sweeps) {j : Job}
    (hnumber : e.number = j.sweep) (sc : Scratch) : resolveMerged j sc (Event.start (applyMerge j sc s)) =
      { st := (applyMerge j sc s).resolvedAs e .merged, raised := 0 ||| resolutionRaises (applyMerge j sc s) e,
        results := [e.result .merged (some sc.counts)] } := by
  have happlied : DistinctNumbers (applyMerge j sc s) := by
    unfold DistinctNumbers; rw [applyMerge_sweeps]; exact hdistinct
  have hfind : (applyMerge j sc s).findSweep e.number = some e :=
    State.findSweep_eq_some happlied (by rw [applyMerge_sweeps]; exact he)
  unfold resolveMerged
  rw [Event.start_st, ← hnumber, hfind]
  exact resolve_eq (by decide) _ _ _ happlied

/-- At its merge completion a lane resolves its sweep, is IDLE, and passes its port on (R112, R115). -/
theorem LaneRules.mergeEvent {s : State} (h : LaneRules s) {l : Fin Config.lanes} {j : Job} {sc : Scratch}
    (hlane : s.lanes[l] = .merging j sc) :
    LaneRules ((resolveMerged j sc (Event.start (applyMerge j sc s))).change fun u =>
      passPort j.slot (u.setLane l .idle)).st := by
  change s.lane l = _ at hlane
  obtain ⟨e, he, hnumber, hstage, hslot⟩ := h.work.job l j (.merging l) (by rw [hlane]; rfl)
  obtain ⟨happlied, happliedPort⟩ := applyMerge_lanes j sc s
  rw [resolveMerged_of_mem h.distinct he hnumber]
  have hsweeps := State.resolvedAs_sweeps (applyMerge j sc s) e .merged
  have hlanes : ((applyMerge j sc s).resolvedAs e .merged).lane = s.lane := funext fun i => by
    rw [State.resolvedAs_lane, if_neg (by rw [hstage]; nofun), happlied]
  have hports := State.resolvedAs_port (applyMerge j sc s) e .merged
  rw [applyMerge_sweeps] at hsweeps
  rw [happliedPort] at hports
  rw [Event.change_st]
  generalize (applyMerge j sc s).resolvedAs e .merged = u at hsweeps hlanes hports
  exact h.passed hlane he hstage hsweeps hlanes hports

/-- A new sweep WAITS without a lane. -/
theorem LaneRules.added {s t : State} (h : LaneRules s) {e : SweepEntry} (hfresh : ∀ x ∈ s.sweeps, x.number ≠ e.number)
    (hstage : e.stage = .waiting) (hsweeps : t.sweeps = s.sweeps ++ [e]) (hlanes : t.lanes = s.lanes)
    (hports : t.ports = s.ports) : LaneRules t := by
  have hadded : LaneRules { s with sweeps := s.sweeps ++ [e] } :=
    ⟨h.work.add hfresh (by rw [hstage]; rfl), h.ports⟩
  exact hadded.of_eq hsweeps hlanes hports

/-- No entry and no job. -/
theorem LaneRules.of_empty {t : State} (hsweeps : t.sweeps = []) (hlanes : ∀ l : Fin Config.lanes, t.lanes[l] = .idle)
    (hports : ∀ k : Fin Config.stackSlots, t.ports[k] = MergePort.reset) : LaneRules t := by
  have hlane : ∀ l, t.lane l = .idle := hlanes
  have hport : ∀ k, t.port k = MergePort.reset := hports
  rw [MergePort.reset] at hport
  refine ⟨⟨by simp [hsweeps], fun l j stage hj => ?_, fun e he => ?_⟩,
    ⟨fun l j sc hl => ?_, fun l j sc hl => ?_, fun k => ?_, fun k l hl => ?_, fun k _ => ?_, fun k l hl => ?_⟩⟩
  · rw [hlane] at hj; simp [Lane.work] at hj
  · rw [hsweeps] at he; simp at he
  · rw [hlane] at hl; simp at hl
  · rw [hlane] at hl; simp at hl
  · rw [hport]; exact List.nodup_nil
  · rw [hport] at hl; simp at hl
  · rw [hport]
  · rw [hport] at hl; simp at hl

@[simp] theorem addSweep_lanes (entry : SweepEntry) (s : State) : (addSweep entry s).lanes = s.lanes := rfl

@[simp] theorem addSweep_ports (entry : SweepEntry) (s : State) : (addSweep entry s).ports = s.ports := rfl

theorem sealMoved_lanes (fl : Fin Config.fleets) (vp : Word32) (ev : Event) :
    (sealMoved fl vp ev).st.lanes = ev.st.lanes ∧ (sealMoved fl vp ev).st.ports = ev.st.ports := by
  rcases sealMoved_cases fl vp ev with h | ⟨k, st, -, -, h⟩ <;> rw [h]
  · exact ⟨rfl, rfl⟩
  · rw [sealSlot_eq]
    unfold State.sealedAs
    dsimp only
    split <;> exact ⟨rfl, rfl⟩

theorem Single.keeps_laneRules {c : Instr} {s : State} {ev : Event} (h : Single c s ev) (hfresh : FreshNumber s)
    (hs : LaneRules s) : LaneRules ev.st := by
  cases h with
  | reset => exact .of_empty rfl (by simp [State.reset]) (by simp [State.reset])
  | @join _ fl vp p t0 n _ _ energy k =>
    exact hs.added (e := newEntry s fl vp k p t0 n energy) hfresh rfl (by simp) rfl rfl
  | @fresh _ fl vp p t0 n _ _ energy k =>
    obtain ⟨hlanes, hports⟩ := sealMoved_lanes fl vp (Event.start s)
    refine hs.added (e := newEntry s fl vp k p t0 n energy) hfresh rfl (by simp) ?_ ?_
    · rw [Event.change_st, addSweep_lanes, Event.change_st, State.openSlot_lanes, hlanes, Event.start_st]
    · rw [Event.change_st, addSweep_ports, Event.change_st, State.openSlot_ports, hports, Event.start_st]
  | correlate hlane => exact hs.ask hlane _
  | merge hlane => exact hs.mergeEvent hlane
  | setup => exact hs.of_eq rfl rfl rfl
  | channelSet => exact hs.of_eq rfl rfl rfl
  | fleetSet => exact hs.of_eq rfl rfl rfl
  | mask => exact hs.of_eq rfl rfl rfl
  | release => exact hs.of_eq rfl rfl rfl
  | read =>
    unfold moveToHarvesting
    split <;> exact hs.of_eq rfl rfl rfl
  | clear => exact .of_empty rfl (by simp [clearEvent, clearBlocks]) (by simp [clearEvent, clearBlocks])

theorem ClockChange.keeps_laneRules {a b : Event} (h : ClockChange a b) (hs : SweepInv a.st) (ha : LaneRules a.st) :
    LaneRules b.st := by
  cases h with
  | change h => exact h.keeps_laneRules hs ha
  | clock => exact ha.of_eq rfl rfl rfl

theorem StreamChange.keeps_laneRules {a b : Event} (h : StreamChange a b) (hs : SweepInv a.st) (ha : LaneRules a.st) :
    LaneRules b.st := by
  cases h with
  | change h => exact h.keeps_laneRules hs ha
  | stream h => exact ha.of_eq h.sweeps h.lanes h.ports
  | arrive n =>
    refine ⟨ha.work.map (fun x _ => ?_) (fun x _ => ?_) fun x _ => SweepEntry.arrive_stage _ n x, ha.ports⟩ <;>
    · unfold SweepEntry.arrive; split <;> rfl
  | slip => exact ha.of_eq rfl rfl rfl

/-- Settles O13: every change keeps the rules of lanes and ports, and the entries coherent. -/
theorem lanesAndMergePortsAgree : Obligations.LanesAndMergePortsAgree := by
  intro s t hsweeps hlanes hfresh hstep
  obtain ⟨c, q, hhappens⟩ := step_happens hstep
  rw [laneInv_iff] at *
  have hkept := happens_keeps (P := fun ev => SweepInv ev.st ∧ LaneRules ev.st)
    (fun _ _ h ⟨hs, hl⟩ => ⟨h.keeps_sweepInv hs, h.keeps_laneRules hs hl⟩)
    (fun _ _ h ⟨hs, hl⟩ => ⟨h.keeps_sweepInv hs, h.keeps_laneRules hs hl⟩)
    (fun _ _ h ⟨hs, hl⟩ => ⟨h.keeps_sweepInv hs, h.keeps_laneRules hs hl⟩)
    (fun _ u _ _ hu h ⟨hs, hl⟩ => ⟨h.keeps_sweepInv hs,
      h.keeps_laneRules (FreshNumber.of_links (s := { s with pending := q }) hfresh hu) hl⟩)
    ⟨hsweeps.of_sweeps rfl, hlanes.of_eq rfl rfl rfl⟩ hhappens
  exact hkept.2

end Sys2Proof.Machine

/-! PROOFS. Rules about all commands: each answers, settings have one writer each (R1, R24, R58, R178), sealed stacks are
untouched (R139, R158), and what power-on leaves. -/

namespace Sys2Proof.Machine

/-! ### Steps and the queue -/

/-- Settles O1, by the definition of a step. -/
theorem stepRunsFrontCommand : Obligations.StepRunsFrontCommand := by
  intro s c rest hpending
  unfold step
  rw [hpending]

theorem exec_answers (c : Instr) (s : State) : ∃ t, exec c s = .next t := by
  cases c with
  | linkUp link => cases link <;> exact ⟨_, rfl⟩
  | linkDown link => cases link <;> exact ⟨_, rfl⟩
  | messageSend link => cases link <;> exact ⟨_, rfl⟩
  | rowBlock => unfold exec execRowBlock; dsimp only; split <;> exact ⟨_, rfl⟩
  | streamStart => unfold exec execStreamStart; dsimp only; split <;> exact ⟨_, rfl⟩
  | unknownKind link => unfold exec execUnknownKind; dsimp only; split <;> exact ⟨_, rfl⟩
  | fillTimeout p =>
    unfold exec execFillTimeout
    dsimp only
    split
    · exact ⟨_, rfl⟩
    · split <;> exact ⟨_, rfl⟩
  | commitCompletion p => unfold exec execCommitCompletion; dsimp only; split <;> exact ⟨_, rfl⟩
  | reportTimerExpiry n => unfold exec execReportTimerExpiry; dsimp only; split <;> exact ⟨_, rfl⟩
  | lingerExpiry k =>
    unfold exec execLingerExpiry
    dsimp only
    split
    · exact ⟨_, rfl⟩
    · split <;> exact ⟨_, rfl⟩
  | correlateCompletion l => unfold exec execCorrelateCompletion; dsimp only; split <;> exact ⟨_, rfl⟩
  | mergeCompletion l => unfold exec execMergeCompletion; dsimp only; split <;> exact ⟨_, rfl⟩
  | _ => exact ⟨_, rfl⟩

theorem resolve_pending (out : SweepOutcome) (counts : Option JobCounts) (e : SweepEntry) (ev : Event) :
    (resolve out counts e ev).st.pending = ev.st.pending := (resolve_aside out counts e ev).pending

theorem sealedAs_pending (s : State) (k : Fin Config.stackSlots) (cause : SealCause) (st : Stack) :
    (s.sealedAs k cause st).pending = s.pending := by
  unfold State.sealedAs
  dsimp only
  split <;> rfl

theorem Change.keeps_pending {a b : Event} (h : Change a b) : b.st.pending = a.st.pending := by
  cases h with
  | flush => simp
  | links h => exact h.pending
  | @settle e qc fails =>
    obtain ⟨ev1, hst, -, h⟩ := settleSweep_cases e (e.settle qc fails) a
    rcases h with h | ⟨-, h⟩ <;> rw [h]
    · rw [hst]; rfl
    · rw [resolve_pending, hst]; rfl
  | resolve => exact resolve_pending _ _ _ _
  | sealed => rw [sealSlot_eq]; exact sealedAs_pending _ _ _ _
  | _ => rfl

theorem addSweep_pending (entry : SweepEntry) (s : State) : (addSweep entry s).pending = s.pending := rfl

theorem Single.keeps_pending {c : Instr} {s : State} {ev : Event} (h : Single c s ev) :
    ev.st.pending = s.pending := by
  cases h with
  | @fresh _ fl vp =>
    rw [Event.change_st, addSweep_pending, Event.change_st, State.openSlot_pending]
    rcases sealMoved_cases fl vp (Event.start s) with h | ⟨k, st, -, -, h⟩ <;> rw [h]
    · rfl
    · rw [sealSlot_eq]; exact sealedAs_pending _ _ _ _
  | correlate => unfold askPort; dsimp only; split <;> rfl
  | merge =>
    rename_i l j sc _
    have hpass : ∀ u : State, (passPort j.slot (u.setLane l .idle)).pending = u.pending := fun u => by
      unfold passPort beginMerge
      split
      · rfl
      · split <;> rfl
    have happly : (applyMerge j sc s).pending = s.pending := by unfold applyMerge; split <;> rfl
    refine (hpass _).trans ?_
    rcases resolveMerged_cases j sc (Event.start (applyMerge j sc s)) with h | ⟨e, -, h⟩ <;> rw [h]
    · exact happly
    · exact (resolve_pending _ _ _ _).trans happly
  | read => unfold moveToHarvesting; split <;> rfl
  | clear => exact (resolveAll_spec (fun _ => true) .droppedClear (Event.start s)).1.pending
  | _ => rfl

/-- Settles O2: every command answers, and none of its changes touches the queue. -/
theorem everyCommandCompletes : Obligations.EveryCommandCompletes := by
  intro c s
  obtain ⟨t, ht⟩ := exec_answers c s
  refine ⟨t, ht, ?_⟩
  refine happens_keeps (P := fun ev => ev.st.pending = s.pending) (c := some c) (fun a b h ha => h.keeps_pending.trans ha)
    (fun a b h ha => ?_) (fun a b h ha => ?_) (fun i u ev _ _ h hu => h.keeps_pending.trans hu) rfl ht
  · cases h with
    | change h => exact h.keeps_pending.trans ha
    | clock => exact ha
  · cases h with
    | change h => exact h.keeps_pending.trans ha
    | stream h => exact h.pending.trans ha
    | arrive => exact ha
    | slip => exact ha

/-! ### Settings (R1, R24, R58, R178) -/

/-- What requests set: C and the interval code, the mask set, the fleets' parameters, and the channels' settings. -/
structure Settings where
  config : Nat × Fin 4
  mask : CauseSet
  fleets : Fin Config.fleets → FleetParams × Bool
  channels : Fin Config.channels → Bool × Word32 × Nat × Nat

/-- The settings of a state. -/
def State.settings (s : State) : Settings where
  config := (s.ingest.channels, s.ingest.interval)
  mask := s.alerts.mask
  fleets fl := ((s.fleets[fl]).params, (s.fleets[fl]).defined)
  channels i := ((s.monitor.table[i]).active, (s.monitor.table[i]).label, (s.monitor.table[i]).deadThreshold,
    (s.monitor.table[i]).noiseThreshold)

/-- Settings are the same, but for those the command writes. -/
structure SameBut (c : Option Instr) (a b : Settings) : Prop where
  config : c ≠ some .setupStream → b.config = a.config
  mask : c ≠ some .alertMask → b.mask = a.mask
  fleets : c ≠ some .fleetSet → b.fleets = a.fleets
  channels : c ≠ some .channelSet → b.channels = a.channels

theorem SameBut.of_eq {c : Option Instr} {a b : Settings} (h : b = a) : SameBut c a b := by
  subst h
  exact ⟨fun _ => rfl, fun _ => rfl, fun _ => rfl, fun _ => rfl⟩

theorem SameBut.trans {c : Option Instr} {a b d : Settings} (h : SameBut c a b) (g : SameBut c b d) : SameBut c a d :=
  ⟨fun hc => (g.config hc).trans (h.config hc), fun hc => (g.mask hc).trans (h.mask hc),
    fun hc => (g.fleets hc).trans (h.fleets hc), fun hc => (g.channels hc).trans (h.channels hc)⟩

theorem State.settings_congr {s t : State} (hchannels : t.ingest.channels = s.ingest.channels)
    (hinterval : t.ingest.interval = s.ingest.interval) (hmask : t.alerts.mask = s.alerts.mask)
    (hfleets : ∀ fl : Fin Config.fleets, (t.fleets[fl]).params = (s.fleets[fl]).params ∧
      (t.fleets[fl]).defined = (s.fleets[fl]).defined)
    (htable : ∀ i : Fin Config.channels, (s.monitor.table[i]).SameSettings t.monitor.table[i]) :
    t.settings = s.settings := by
  unfold State.settings
  rw [hchannels, hinterval, hmask]
  congr 1
  · funext fl; rw [(hfleets fl).1, (hfleets fl).2]
  · funext i
    obtain ⟨h1, h2, h3, h4⟩ := htable i
    rw [h1, h2, h3, h4]

theorem State.SameAside.settings {s t : State} (h : s.SameAside t) : t.settings = s.settings :=
  State.settings_congr (by rw [h.ingest]) (by rw [h.ingest]) (by rw [h.alerts]) (fun fl => by rw [h.fleets]; exact ⟨rfl, rfl⟩)
    fun i => by rw [h.monitor]; exact .refl _

/-- A fleet's record changes but for what FLEET SET writes. -/
theorem setFleet_settings (s : State) (fl : Fin Config.fleets) (r : Fleet) (hparams : r.params = (s.fleets[fl]).params)
    (hdefined : r.defined = (s.fleets[fl]).defined) : (s.setFleet fl r).settings = s.settings := by
  refine State.settings_congr rfl rfl rfl (fun f => ?_) fun i => .refl _
  rw [State.setFleet_fleets, vector_set_getElem]
  split
  next hf => subst hf; exact ⟨hparams, hdefined⟩
  · exact ⟨rfl, rfl⟩

theorem sealedAs_settings (s : State) (k : Fin Config.stackSlots) (cause : SealCause) (st : Stack) :
    (s.sealedAs k cause st).settings = s.settings := by
  have hfleet := setFleet_settings s st.fleet { s.fleets[st.fleet] with openSlot := none } rfl rfl
  unfold State.sealedAs
  dsimp only
  split <;> exact hfleet

theorem addSweep_settings (entry : SweepEntry) (s : State) : (addSweep entry s).settings = s.settings :=
  setFleet_settings (s.pinPilot entry.pilot) entry.fleet _ rfl rfl

theorem openSlot_settings (s : State) (k : Fin Config.stackSlots) (fl : Fin Config.fleets) (vp : Word32) :
    (s.openSlot k fl vp).settings = s.settings :=
  setFleet_settings (s.setSlot k _) fl { s.fleets[fl] with openSlot := some k } rfl rfl

theorem clearLatches_getElem (first n : Nat) (v : Vector Channel Config.channels) (i : Fin Config.channels) :
    (clearLatches first n v)[i] = if first ≤ i.val ∧ i.val < first + n then { v[i] with latched := Latched.reset } else v[i] := by
  have hlist : (clearLatches first n v).toList = v.toList.take first ++
      mapFirst (fun c : Channel => { c with latched := Latched.reset }) n (v.toList.drop first) := rfl
  have hv : v.toList[i.val]? = some v[i] := by simp
  have hget : (clearLatches first n v).toList[i.val]? = some
      (if first ≤ i.val ∧ i.val < first + n then { v[i] with latched := Latched.reset } else v[i]) := by
    rw [hlist]
    by_cases hi : i.val < first
    · rw [List.getElem?_append_left (by simp; omega), List.getElem?_take_of_lt hi, hv, if_neg (by omega)]
    · have hshift : first + (i.val - first) = i.val := by omega
      have hlen : (v.toList.take first).length = first := by simp; omega
      rw [List.getElem?_append_right (by omega), hlen, mapFirst_getElem?, List.getElem?_drop, hshift, hv]
      by_cases hn : i.val - first < n
      · rw [if_pos hn, if_pos (by omega)]; rfl
      · rw [if_neg hn, if_neg (by omega)]
  have hout : (clearLatches first n v).toList[i.val]? = some (clearLatches first n v)[i] := by simp
  exact Option.some.inj (hout.symm.trans hget)

theorem clearLatches_settings (first n : Nat) (v : Vector Channel Config.channels) (i : Fin Config.channels) :
    (v[i]).SameSettings (clearLatches first n v)[i] := by
  rw [clearLatches_getElem]
  split <;> exact ⟨rfl, rfl, rfl, rfl⟩

theorem Change.keeps_settings {a b : Event} (h : Change a b) : b.st.settings = a.st.settings := by
  cases h with
  | flush =>
    exact State.settings_congr (by simp) (by simp) (by simp) (fun fl => by simp) fun i => by simp [Channel.SameSettings]
  | links h =>
    exact State.settings_congr (by rw [Event.change_st, h.ingest]) (by rw [Event.change_st, h.ingest]) h.mask (fun fl => by rw [Event.change_st, h.fleets]; exact ⟨rfl, rfl⟩)
      fun i => by rw [Event.change_st, h.monitor]; exact .refl _
  | latches => exact State.settings_congr rfl rfl rfl (fun fl => ⟨rfl, rfl⟩) fun i => clearLatches_settings _ _ _ i
  | @settle e qc fails =>
    obtain ⟨ev1, hst, -, h⟩ := settleSweep_cases e (e.settle qc fails) a
    rcases h with h | ⟨-, h⟩ <;> rw [h]
    · rw [hst]; rfl
    · rw [(resolve_aside _ _ _ _).settings, hst]; rfl
  | resolve => exact (resolve_aside _ _ _ _).settings
  | sealed => rw [sealSlot_eq]; exact sealedAs_settings _ _ _ _
  | _ => rfl

theorem Single.keeps_settings {c : Instr} {s : State} {ev : Event} (h : Single c s ev) (hreset : c ≠ .powerOn) :
    SameBut (some c) s.settings ev.st.settings := by
  cases h with
  | reset => exact (hreset rfl).elim
  | join => exact .of_eq (addSweep_settings _ _)
  | @fresh _ fl vp =>
    refine .of_eq ((addSweep_settings _ _).trans ((openSlot_settings _ _ _ _).trans ?_))
    rcases sealMoved_cases fl vp (Event.start s) with h | ⟨k, st, -, -, h⟩ <;> rw [h]
    · rfl
    · rw [sealSlot_eq]; exact sealedAs_settings _ _ _ _
  | correlate => unfold askPort; dsimp only; split <;> exact .of_eq rfl
  | merge =>
    rename_i l j sc _
    have hpass : ∀ u : State, (passPort j.slot (u.setLane l .idle)).settings = u.settings := fun u => by
      unfold passPort beginMerge
      split
      · rfl
      · split <;> rfl
    have happly : (applyMerge j sc s).settings = s.settings := by unfold applyMerge; split <;> rfl
    refine .of_eq ((hpass _).trans ?_)
    rcases resolveMerged_cases j sc (Event.start (applyMerge j sc s)) with h | ⟨e, -, h⟩ <;> rw [h]
    · exact happly
    · exact (resolve_aside _ _ _ _).settings.trans happly
  | @setup _ channels i =>
    have hrest : { (setupStream channels i s).settings with config := s.settings.config } = s.settings := by
      refine State.settings_congr (s := s) (t := { setupStream channels i s with ingest := s.ingest }) rfl rfl rfl
        (fun fl => ?_) fun j => restart_settings s.monitor none j
      simp [setupStream, clearSlip]
    have hfields := Settings.mk.inj hrest
    exact ⟨fun h => (h rfl).elim, fun _ => hfields.2.1, fun _ => hfields.2.2.1, fun _ => hfields.2.2.2⟩
  | channelSet => exact ⟨fun _ => rfl, fun _ => rfl, fun _ => rfl, fun h => (h rfl).elim⟩
  | fleetSet => exact ⟨fun _ => rfl, fun _ => rfl, fun h => (h rfl).elim, fun _ => rfl⟩
  | mask => exact ⟨fun _ => rfl, fun h => (h rfl).elim, fun _ => rfl, fun _ => rfl⟩
  | release => exact .of_eq rfl
  | read => unfold moveToHarvesting; split <;> exact .of_eq rfl
  | clear =>
    unfold clearEvent
    have hresolved := (resolveAll_spec (fun _ => true) .droppedClear (Event.start s)).1.settings
    generalize resolveAll (fun _ => true) .droppedClear (Event.start s) = ev at hresolved
    refine .of_eq (Eq.trans ?_ hresolved)
    refine State.settings_congr rfl rfl rfl (fun fl => ?_) fun i => ?_
    · simp [clearBlocks]
    · simp [clearBlocks, Monitor.clear, clearChannel, resetChannel, Channel.SameSettings]

/-- Settles O14: every change keeps the settings, but a request's own change those it writes. -/
theorem onlyTheirRequestsWriteSettings : Obligations.OnlyTheirRequestsWriteSettings := by
  intro c s t h hreset
  have hsame : SameBut c s.settings t.settings := by
    refine happens_keeps (P := fun ev => SameBut c s.settings ev.st.settings)
      (fun a b h ha => ha.trans (.of_eq h.keeps_settings)) (fun a b h ha => ?_) (fun a b h ha => ?_)
      (fun i u ev hc _ hown hu => ?_) (.of_eq rfl) h
    · cases h with
      | change h => exact ha.trans (.of_eq h.keeps_settings)
      | clock => exact ha
    · cases h with
      | change h => exact ha.trans (.of_eq h.keeps_settings)
      | stream h =>
        refine ha.trans (.of_eq (State.settings_congr h.channels h.interval ?_ (fun fl => ?_) h.settings))
        · rw [Event.change_st, h.alerts]
        · rw [Event.change_st, h.fleets]; exact ⟨rfl, rfl⟩
      | arrive => exact ha
      | slip => exact ha.trans (.of_eq (State.settings_congr rfl rfl rfl (fun fl => by simp [clearSlip]) fun i => .refl _))
    · subst hc
      exact hu.trans (hown.keeps_settings fun hi => hreset (by rw [hi]))
  refine ⟨fun hc => Prod.mk.inj (hsame.config hc), hsame.mask, fun hc fl => ?_, fun hc i => ?_⟩
  · exact Prod.mk.inj (congrFun (hsame.fleets hc) fl)
  · have hi := congrFun (hsame.channels hc) i
    simp only [State.settings, Prod.mk.injEq] at hi
    exact hi

end Sys2Proof.Machine

/-! PROOFS. Sealed stacks are untouched (R139, R158). -/

namespace Sys2Proof.Machine

/-- A slot holds this stack, and no entry and no fleet names it. -/
structure Alone (k : Fin Config.stackSlots) (st : Stack) (s : State) : Prop where
  slot : s.slots[k] = some st
  entries : ∀ e ∈ s.sweeps, e.slot ≠ k
  fleets : ∀ fl : Fin Config.fleets, (s.fleets[fl]).openSlot ≠ some k

theorem resolveStack_slots_other {i k : Fin Config.stackSlots} (hi : i ≠ k) (out : SweepOutcome) (ev : Event) :
    (resolveStack i out ev).st.slots[k] = ev.st.slots[k] := by
  have hset : ∀ x : Option Stack, (ev.st.setSlot i x).slots[k] = ev.st.slots[k] := fun x =>
    (vector_set_getElem ev.st.slots i k x).trans (if_neg hi)
  unfold resolveStack
  split
  · rfl
  · dsimp only
    split
    · split
      · rw [enterSealed_eq]; exact hset _
      · exact hset _
    · exact hset _

theorem resolve_slots_other (out : SweepOutcome) (counts : Option JobCounts) {e : SweepEntry} (ev : Event)
    {k : Fin Config.stackSlots} (hk : e.slot ≠ k) : (resolve out counts e ev).st.slots[k] = ev.st.slots[k] := by
  obtain ⟨-, hslots, -, -⟩ := removeEntry_stack e ev.st
  have hremoved : (removeEntry e ev.st).slots[k] = ev.st.slots[k] := by rw [hslots]
  unfold resolve
  dsimp only
  split
  · exact hremoved
  · exact (resolveStack_slots_other hk out _).trans hremoved

namespace Alone

variable {k : Fin Config.stackSlots} {st : Stack} {s t : State}

theorem of_same (h : Alone k st s) (hslot : t.slots[k] = s.slots[k]) (hsweeps : ∀ e ∈ t.sweeps, e ∈ s.sweeps)
    (hfleets : ∀ fl : Fin Config.fleets, (t.fleets[fl]).openSlot = some k → (s.fleets[fl]).openSlot = some k) :
    Alone k st t :=
  ⟨hslot.trans h.slot, fun e he => h.entries e (hsweeps e he), fun fl hk => h.fleets fl (hfleets fl hk)⟩

theorem of_eq (h : Alone k st s) (hslots : t.slots = s.slots) (hsweeps : t.sweeps = s.sweeps)
    (hfleets : t.fleets = s.fleets) : Alone k st t :=
  h.of_same (by rw [hslots]) (fun e he => hsweeps ▸ he) fun fl hk => by rw [hfleets] at hk; exact hk

/-- Another slot is written. -/
theorem setSlot (h : Alone k st s) {i : Fin Config.stackSlots} (hi : i ≠ k) (x : Option Stack) :
    Alone k st (s.setSlot i x) :=
  h.of_same ((vector_set_getElem s.slots i k x).trans (if_neg hi)) (fun _ he => he) fun _ hk => hk

theorem sealedAs (h : Alone k st s) {i : Fin Config.stackSlots} (hi : i ≠ k) (cause : SealCause) (x : Stack) :
    Alone k st (s.sealedAs i cause x) := by
  have hclosed : Alone k st (s.setFleet x.fleet { s.fleets[x.fleet] with openSlot := none }) := by
    refine h.of_same rfl (fun _ he => he) fun fl hk => ?_
    rw [State.setFleet_fleets, vector_set_getElem] at hk
    split at hk
    · simp at hk
    · exact hk
  unfold State.sealedAs
  dsimp only
  split
  · exact hclosed.setSlot hi _
  · exact (hclosed.setSlot hi (some { x with phase := .sealed cause s.sealOrders })).of_eq rfl rfl rfl

theorem updateSweep (h : Alone k st s) {n : Word32} {f : SweepEntry → SweepEntry}
    (hf : ∀ x ∈ s.sweeps, x.number = n → (f x).slot ≠ k) : Alone k st (s.updateSweep n f) := by
  refine ⟨h.slot, ?_, h.fleets⟩
  refine List.forall_mem_map.2 fun x hx => ?_
  split
  next hn => exact hf x hx hn
  · exact h.entries x hx

theorem resolve {ev : Event} (h : Alone k st ev.st) (out : SweepOutcome) (counts : Option JobCounts) {e : SweepEntry}
    (he : e ∈ ev.st.sweeps) : Alone k st (resolve out counts e ev).st := by
  have hslot : e.slot ≠ k := h.entries e he
  have haside := resolve_aside out counts e ev
  refine h.of_same ?_ (fun x hx => ?_) fun fl hk => by rw [haside.fleets] at hk; exact hk
  · exact resolve_slots_other out counts ev hslot
  · rw [resolve_sweeps] at hx
    exact removeFirst_mem hx

end Alone

theorem Change.keeps_alone {k : Fin Config.stackSlots} {st : Stack} (hsealed : st.isSealed = true) {a b : Event}
    (h : Change a b) (ha : Alone k st a.st) : Alone k st b.st := by
  cases h with
  | cause => exact ha
  | flush => exact ha.of_eq (by simp) (by simp) (by simp)
  | links h => exact ha.of_eq h.slots h.sweeps h.fleets
  | pilots => exact ha.of_eq rfl rfl rfl
  | latches => exact ha.of_eq rfl rfl rfl
  | @settle e qc fails he =>
    obtain ⟨ev1, hst, -, h⟩ := settleSweep_cases e (e.settle qc fails) a
    have hupdated : Alone k st ev1.st := by
      rw [hst]
      exact ha.updateSweep fun _ _ _ => ha.entries e he
    rcases h with h | ⟨-, h⟩ <;> rw [h]
    · exact hupdated
    · exact hupdated.resolve _ _ (by rw [hst]; exact mem_updateSweep he)
  | resolve _ _ he => exact ha.resolve _ _ he
  | @sealed i x cause hx hopen =>
    have hi : i ≠ k := by
      rintro rfl
      rcases hopen with hjoin | ⟨fl, hfl⟩
      · obtain rfl := Option.some.inj (hx.symm.trans ha.slot)
        simp [(not_sealed_of_joinable hjoin).2.2] at hsealed
      · exact ha.fleets fl hfl
    rw [sealSlot_eq]
    exact ha.sealedAs hi cause x
  | linger ms hopen => exact ha.setSlot (fun hi => ha.fleets _ (hi ▸ hopen)) _
  | @grant e l =>
    exact (ha.updateSweep (n := e.number) (f := fun x => { x with stage := .correlating l })
      fun x hx _ => ha.entries x hx).of_eq rfl rfl rfl

theorem Alone.addSweep {k : Fin Config.stackSlots} {st : Stack} {s : State} (h : Alone k st s) {entry : SweepEntry}
    (hk : entry.slot ≠ k) : Alone k st (addSweep entry s) := by
  refine ⟨h.slot, fun e he => ?_, fun fl => by rw [addSweep_openSlot]; exact h.fleets fl⟩
  rcases List.mem_append.1 he with he | he
  · exact h.entries e he
  · rw [List.mem_singleton.1 he]; exact hk

theorem Alone.openSlot {k i : Fin Config.stackSlots} {st : Stack} {s : State} (h : Alone k st s) (hi : i ≠ k)
    (fl : Fin Config.fleets) (vp : Word32) : Alone k st (s.openSlot i fl vp) := by
  refine h.of_same ((vector_set_getElem s.slots i k _).trans (if_neg hi)) (fun _ he => he) fun f hf => ?_
  have hset : ((s.openSlot i fl vp).fleets[f]) = if fl = f then { s.fleets[fl] with openSlot := some i } else s.fleets[f] :=
    vector_set_getElem s.fleets fl f _
  rw [hset] at hf
  split at hf
  · exact (hi (Option.some.inj hf)).elim
  · exact hf

theorem Alone.mergeEvent {k : Fin Config.stackSlots} {st : Stack} {s : State} (h : Alone k st s) (l : Fin Config.lanes)
    {j : Job} (sc : Scratch) (hj : j.slot ≠ k) :
    Alone k st ((resolveMerged j sc (Event.start (applyMerge j sc s))).change fun u =>
      passPort j.slot (u.setLane l .idle)).st := by
  have happlied : Alone k st (applyMerge j sc s) := by
    unfold applyMerge
    split
    · exact h
    · exact h.setSlot hj _
  have hresolved : Alone k st (resolveMerged j sc (Event.start (applyMerge j sc s))).st := by
    rcases resolveMerged_cases j sc (Event.start (applyMerge j sc s)) with hm | ⟨e, he, hm⟩ <;> rw [hm]
    · exact happlied
    · exact Alone.resolve (ev := Event.start (applyMerge j sc s)) happlied _ _ (findSweep_mem he)
  generalize resolveMerged j sc (Event.start (applyMerge j sc s)) = ev at hresolved
  obtain ⟨hfleets, hslots, -, -⟩ := passPort_stack j.slot (ev.st.setLane l .idle)
  exact hresolved.of_eq hslots (passPort_claims j.slot (ev.st.setLane l .idle)).1 hfleets

/-- What a step may do to a stack that is alone: nothing, or, at RECORD READ, move it to HARVESTING. -/
def MovesTo (c : Option Instr) (st st' : Stack) : Prop :=
  (c ≠ some .recordRead → st' = st) ∧ (∃ phase, st' = { st with phase := phase }) ∧ st'.isSealed = true ∧
    st'.sealCause = st.sealCause

theorem Stack.movesTo_harvesting {st : Stack} {c : SealCause} {n : Word32}
    (hphase : st.phase = .sealed c n) : MovesTo (some .recordRead) st { st with phase := .harvesting c } :=
  ⟨fun h => (h rfl).elim, ⟨_, rfl⟩, rfl, by unfold Stack.sealCause; rw [hphase]⟩

theorem Single.keeps_alone {c : Instr} {s : State} {ev : Event} (h : Single c s ev) {k : Fin Config.stackSlots}
    {st : Stack} (hs : Alone k st s) (hsealed : st.isSealed = true) (hpower : c ≠ .powerOn)
    (hrelease : c ≠ .stackRelease) (hclear : c ≠ .deviceClear)
    (hmerges : ∀ (l : Fin Config.lanes) (j : Job) (sc : Scratch), s.lanes[l] = .merging j sc → j.slot ≠ k) :
    ∃ st', MovesTo (some c) st st' ∧ Alone k st' ev.st := by
  have hsame : ∀ {u : State}, Alone k st u → ∃ st', MovesTo (some c) st st' ∧ Alone k st' u := fun h =>
    ⟨st, ⟨fun _ => rfl, ⟨_, rfl⟩, hsealed, rfl⟩, h⟩
  cases h with
  | reset => exact (hpower rfl).elim
  | @join _ fl vp p t0 n _ _ energy i x _ _ _ hopen =>
    have hi : i ≠ k := fun hi => hs.fleets fl (hi ▸ (openStack_eq hopen).1)
    exact hsame ((hs.setSlot hi _).addSweep (entry := newEntry s fl vp i p t0 n energy) hi)
  | @fresh _ fl vp p t0 n _ _ energy i _ _ _ hfree =>
    have hi : i ≠ k := fun hi => by subst hi; rw [hs.slot] at hfree; simp at hfree
    refine hsame (Alone.addSweep (entry := newEntry s fl vp i p t0 n energy) (Alone.openSlot ?_ hi fl vp) hi)
    rcases sealMoved_cases fl vp (Event.start s) with h | ⟨i0, x, hopen, -, h⟩ <;> rw [h]
    · exact hs
    · rw [sealSlot_eq]
      exact hs.sealedAs (fun hi => hs.fleets fl (hi ▸ (openStack_eq hopen).1)) _ _
  | @correlate _ l j =>
    have hupdated : Alone k st (s.updateSweep j.sweep fun x => { x with stage := .merging l }) :=
      hs.updateSweep fun x hx _ => hs.entries x hx
    refine hsame ?_
    unfold askPort
    dsimp only
    split <;> exact hupdated.of_eq rfl rfl rfl
  | merge hlane => exact hsame (hs.mergeEvent _ _ (hmerges _ _ _ hlane))
  | setup => exact hsame (hs.of_same rfl (fun _ he => he) fun fl hk => by simpa [setupStream, clearSlip] using hk)
  | channelSet => exact hsame (hs.of_eq rfl rfl rfl)
  | fleetSet fl d =>
    refine hsame (hs.of_same rfl (fun _ he => he) fun f hf => ?_)
    rw [Event.start_st, State.setFleet_fleets, vector_set_getElem] at hf
    split at hf
    next hfl => subst hfl; exact hf
    · exact hf
  | mask => exact hsame (hs.of_eq rfl rfl rfl)
  | release => exact (hrelease rfl).elim
  | @read _ i x r hx =>
    by_cases hi : i = k
    · subst hi
      obtain rfl := Option.some.inj (hx.symm.trans hs.slot)
      unfold moveToHarvesting
      split
      next c n hphase =>
        refine ⟨_, Stack.movesTo_harvesting hphase, (vector_set_getElem s.slots i i _).trans (if_pos rfl),
          hs.entries, hs.fleets⟩
      · exact hsame (hs.of_eq rfl rfl rfl)
    · refine hsame ?_
      unfold moveToHarvesting
      split
      · exact (hs.setSlot hi _).of_eq rfl rfl rfl
      · exact hs.of_eq rfl rfl rfl
  | clear => exact (hclear rfl).elim

theorem MovesTo.trans {c : Option Instr} {st st' st'' : Stack} (h : MovesTo c st st') (g : MovesTo c st' st'') :
    MovesTo c st st'' := by
  obtain ⟨hsame, ⟨p, hp⟩, -, hcause⟩ := h
  obtain ⟨hsame', ⟨p', hp'⟩, hsealed', hcause'⟩ := g
  refine ⟨fun hc => (hsame' hc).trans (hsame hc), ⟨p', by rw [hp', hp]⟩, hsealed', hcause'.trans hcause⟩

theorem ClockChange.keeps_alone {k : Fin Config.stackSlots} {st : Stack} (hsealed : st.isSealed = true) {a b : Event}
    (h : ClockChange a b) (ha : Alone k st a.st) : Alone k st b.st := by
  cases h with
  | change h => exact h.keeps_alone hsealed ha
  | clock => exact ha.of_eq rfl rfl rfl

theorem StreamChange.keeps_alone {k : Fin Config.stackSlots} {st : Stack} (hsealed : st.isSealed = true) {a b : Event}
    (h : StreamChange a b) (ha : Alone k st a.st) : Alone k st b.st := by
  cases h with
  | change h => exact h.keeps_alone hsealed ha
  | stream h => exact ha.of_eq h.slots h.sweeps h.fleets
  | arrive n =>
    refine ⟨ha.slot, List.forall_mem_map.2 fun x hx => ?_, ha.fleets⟩
    have harrive : (x.arrive a.st n).slot = x.slot := by unfold SweepEntry.arrive; split <;> rfl
    rw [harrive]
    exact ha.entries x hx
  | slip => exact ha.of_same rfl (fun _ he => he) fun fl hk => by simpa [clearSlip] using hk

/-- Settles O15: every change leaves a sealed slot that nothing names alone, but for the read's move. -/
theorem sealedStacksAreUntouched : Obligations.SealedStacksAreUntouched := by
  intro c s t k st h hpower hrelease hclear hst hsealed hentries hfleets hmerges
  have hnone : ∀ e ∈ s.sweeps, e.slot ≠ k := fun e he hk =>
    List.filter_eq_nil_iff.1 (List.length_eq_zero_iff.1 hentries) e he (by simpa using hk)
  have hkept : ∃ st', MovesTo c st st' ∧ Alone k st' t := by
    refine happens_keeps (P := fun ev => ∃ st', MovesTo c st st' ∧ Alone k st' ev.st)
      (fun a b h ⟨st', hmoves, ha⟩ => ⟨st', hmoves, h.keeps_alone hmoves.2.2.1 ha⟩)
      (fun a b h ⟨st', hmoves, ha⟩ => ⟨st', hmoves, h.keeps_alone hmoves.2.2.1 ha⟩)
      (fun a b h ⟨st', hmoves, ha⟩ => ⟨st', hmoves, h.keeps_alone hmoves.2.2.1 ha⟩)
      (fun i u ev hc hu hown ⟨st', hmoves, ha⟩ => ?_)
      ⟨st, ⟨fun _ => rfl, ⟨_, rfl⟩, hsealed, rfl⟩, hst, hnone, hfleets⟩ h
    subst hc
    obtain ⟨st'', hmoves', hb⟩ := hown.keeps_alone ha hmoves.2.2.1 (fun hi => hpower (congrArg some hi))
      (fun hi => hrelease (congrArg some hi)) (fun hi => hclear (congrArg some hi))
      fun l j sc hl => hmerges l j sc (by rw [hu.lanes] at hl; exact hl)
    exact ⟨st'', hmoves.trans hmoves', hb⟩
  obtain ⟨st', ⟨hsame, ⟨phase, hphase⟩, hsealed', hcause⟩, halone⟩ := hkept
  exact ⟨fun hc => hsame hc ▸ halone.slot, phase, hphase ▸ halone.slot, hphase ▸ hsealed', hphase ▸ hcause⟩

end Sys2Proof.Machine

/-! PROOFS. The part right after power-on, and link events. -/

namespace Sys2Proof.Machine

/-! ### Power-on -/

/-- Settles O3: the reset state, item by item. -/
theorem powerOnGivesResetValues : Obligations.PowerOnGivesResetValues := by
  intro s
  refine ⟨{ State.reset with pending := s.pending, freeCount := s.freeCount }, rfl, rfl, rfl, rfl, rfl, rfl, rfl, ?_⟩
  refine ⟨fun i => ?_, fun p => ?_, fun fl => ?_, rfl, rfl, fun l => ?_, fun k => ⟨?_, ?_⟩, rfl, rfl, rfl, rfl, rfl, rfl,
    rfl, rfl, rfl, rfl⟩ <;>
  simp [State.reset, Monitor.reset, Channel.reset, Latched.reset, PilotSlot.reset, Fleet.reset, FleetParams.reset,
    MergePort.reset]

theorem reset_slots (k : Fin Config.stackSlots) : State.reset.slots[k] = none := by simp [State.reset]

theorem reset_lanes (l : Fin Config.lanes) : State.reset.lanes[l] = .idle := by simp [State.reset]

theorem reset_pilots (p : Fin Config.pilots) : State.reset.pilots[p] = PilotSlot.reset := by simp [State.reset]

theorem ringInv_reset : RingInv State.reset := by
  refine ⟨?_, ?_, ?_, rfl⟩ <;> simp [State.reset, Ingest.reset]

theorem monitorInv_reset : MonitorInv State.reset := by
  have htable : ∀ c ∈ State.reset.monitor.table.toList, c = Channel.reset := fun c hc => by
    simpa [State.reset, Monitor.reset] using hc
  refine ⟨fun c hc => ?_, fun c hc => ?_, by decide, fun _ => rfl⟩
  · rw [htable c hc]
    exact ⟨by unfold Channel.ok; decide, Nat.zero_le _⟩
  · rw [htable c (List.mem_of_mem_drop hc)]
    rfl

theorem historyInv_reset : HistoryInv State.reset := by
  refine ⟨ringInv_reset, List.nodup_nil, ⟨fun p => ?_, fun fl => ?_, fun e he => ?_⟩, fun e he => ?_⟩
  · rw [reset_pilots]; trivial
  · simp [State.reset, Fleet.reset, FleetParams.reset]
  · simp [State.reset] at he
  · simp [State.reset] at he

theorem boundsInv_reset : BoundsInv State.reset :=
  ⟨fun k st hst => by rw [reset_slots] at hst; simp at hst, fun l => by rw [reset_lanes]; trivial⟩

theorem noTimerLate_reset : NoTimerLate State.reset := by
  rintro timer (⟨p, n, i, held, hp⟩ | ⟨e, he, -⟩ | ⟨k, st, hst, -⟩)
  · rw [reset_pilots] at hp; simp [PilotSlot.reset] at hp
  · simp [State.reset] at he
  · rw [reset_slots] at hst; simp at hst

/-- Settles O4: power-on leaves nothing that an invariant could say anything of. -/
theorem invariantsHoldAtReset : Obligations.InvariantsHoldAtReset := by
  refine ⟨ringInv_reset, monitorInv_reset, ?_, fun e he => ?_, ?_, historyInv_reset, ?_, ?_, ?_, boundsInv_reset,
    noTimerLate_reset⟩
  · exact linkInv_reset [] 0
  · simp [State.reset] at he
  · exact (accounted_start_iff _).1 ⟨by simp [State.reset], by simp [State.reset, PartnerLink.reset]⟩
  · exact (claimInv_iff _).2 (.of_empty rfl (fun p => by rw [reset_pilots]; rfl) reset_slots)
  · exact (stackInv_iff _).2 (.of_empty (by simp [State.reset, Fleet.reset]) reset_slots rfl rfl)
  · exact (laneInv_iff _).2 (.of_empty rfl reset_lanes (by simp [State.reset]))

/-! ### Link events and sending (R169, R173, R174) -/

/-- Settles O32: each event's equation. -/
theorem linkEventsAndSending : Obligations.LinkEventsAndSending := by
  intro s
  refine ⟨rfl, rfl, rfl, rfl, rfl, rfl, fun link bytes hdown => ?_, fun l m hdown => ?_, fun m rest hup houtput => ?_,
    fun m rest hup houtput => ?_, rfl⟩
  · unfold exec execFrameReceipt
    simp [hdown]
  · unfold PartnerLink.push
    simp [hdown]
  · unfold exec execMessageSend PartnerLink.send
    simp [hup, houtput]
  · unfold exec execMessageSend PartnerLink.send
    simp [hup, houtput]

end Sys2Proof.Machine

/-! PROOFS. ROW BLOCK and STREAM START row by row (R6 to R15, R19): what the invariants of the ring, the monitor and the
sweeps' history are kept by. -/

namespace Sys2Proof.Machine

/-! ### Rows of a block -/

theorem gapWord_ok : gapWord.ok := by
  unfold RingWord.ok gapWord
  exact ⟨by decide, by decide, fun _ => ⟨rfl, rfl⟩⟩

/-- A sample word as it is read: 24 bits and a gain step of 0 to 3. -/
theorem readSampleWord_range (b : List Byte) : -8388608 ≤ (readSampleWord b).raw ∧ (readSampleWord b).raw ≤ 8388607 := by
  have hlo := BitVec.le_toInt (x := BitVec.ofNat 24 (byteAt b 0 * 65536 + halfAt b 1))
  have hhi := BitVec.toInt_lt (x := BitVec.ofNat 24 (byteAt b 0 * 65536 + halfAt b 1))
  unfold readSampleWord
  dsimp only
  omega

/-- A sample of 24 bits scaled by at most 4^3 fits 30 bits (R16). -/
theorem normalise_ok {w : SampleWord} (hlo : -8388608 ≤ w.raw) (hhi : w.raw ≤ 8388607) : (normalise w).ok := by
  cases hvalid : w.valid with
  | false =>
    rw [normalise_of_invalid hvalid]
    exact ⟨by decide, by decide, fun _ => ⟨rfl, rfl⟩⟩
  | true =>
    rw [normalise_of_valid hvalid]
    have hpow : (1 : Int) ≤ 4 ^ (3 - w.gain) ∧ (4 : Int) ^ (3 - w.gain) ≤ 64 := by
      have : 3 - w.gain ≤ 3 := by omega
      generalize 3 - w.gain = k at this ⊢
      interval_cases k <;> decide
    refine ⟨?_, ?_, nofun⟩ <;> dsimp only <;> nlinarith

/-- Rows of C words in range. -/
def RowsOk (channels : Nat) (rows : List (List RingWord)) : Prop :=
  ∀ words ∈ rows, words.length = channels ∧ ∀ w ∈ words, w.ok

theorem rowsOk_gap (channels d : Nat) : RowsOk channels (List.replicate d (List.replicate channels gapWord)) := by
  intro words hwords
  obtain rfl := List.eq_of_mem_replicate hwords
  exact ⟨List.length_replicate .., fun w hw => List.eq_of_mem_replicate hw ▸ gapWord_ok⟩

theorem rowsOk_read (n c : Nat) (p : List Byte) : RowsOk c ((readRows n c p).map fun r => r.map normalise) := by
  intro words hwords
  unfold readRows at hwords
  simp only [List.map_map, List.mem_map, Function.comp] at hwords
  obtain ⟨row, -, rfl⟩ := hwords
  refine ⟨by simp, fun w hw => ?_⟩
  obtain ⟨b, -, rfl⟩ := List.mem_map.1 hw
  exact normalise_ok (readSampleWord_range b).1 (readSampleWord_range b).2

theorem RowsOk.of_mem {channels : Nat} {rows rows' : List (List RingWord)} (h : RowsOk channels rows)
    (hmem : ∀ words ∈ rows', words ∈ rows) : RowsOk channels rows' := fun words hw => h words (hmem words hw)

/-! ### One thing that happens to the stream -/

/-- Beside the changes of every event, at a ROW BLOCK or STREAM START: counters count, an origin is set in origin state
NONE, a row is appended, the stream restarts. -/
inductive RowChange : Event → Event → Prop
  | change {a b : Event} : Change a b → RowChange a b
  | count {ev : Event} {i : Ingest} : i.channels = ev.st.ingest.channels → i.interval = ev.st.ingest.interval →
      i.origin = ev.st.ingest.origin → RowChange ev (ev.change fun s => { s with ingest := i })
  | origin {ev : Event} (first : Ssn) : ev.st.ingest.origin = none →
      RowChange ev (ev.change fun s =>
        { s with ingest := { s.ingest with origin := some { origin := first, expected := first } } })
  | row {ev : Event} (gap : Bool) {words : List RingWord} : ev.st.ingest.origin ≠ none →
      words.length = ev.st.ingest.channels → (∀ w ∈ words, w.ok) → RowChange ev (appendRow gap ev words)
  | restart (ev : Event) (o : Ssn) : RowChange ev (restartStream o ev)

/-- E moves on by one with an appended row, and nothing else of the ingest unit changes (R8). -/
theorem appendRow_ingest (gap : Bool) (ev : Event) (words : List RingWord) :
    (appendRow gap ev words).st.ingest = { ev.st.ingest with
      origin := ev.st.ingest.origin.map fun o => { o with expected := nextSsn ev.st + 1 } } := by
  have ha := arrivalReport_aside (nextSsn ev.st) ev.st.ring.isEmpty
    ((departOldest ev).change (storeRow (nextSsn ev.st) words))
  unfold appendRow
  dsimp only
  rw [handRow_st, ha.ingest, Event.change_st, storeRow, (departOldest_ingest ev).1]

theorem appendRows_rows (gap : Bool) {rows : List (List RingWord)} {ev : Event} (horigin : ev.st.ingest.origin ≠ none)
    (hrows : RowsOk ev.st.ingest.channels rows) :
    Relation.ReflTransGen RowChange ev (rows.foldl (appendRow gap) ev) := by
  induction rows generalizing ev with
  | nil => exact .refl
  | cons words rows ih =>
    have hingest := appendRow_ingest gap ev words
    obtain ⟨hlength, hwords⟩ := hrows words (List.mem_cons_self ..)
    refine .head (.row gap horigin hlength hwords) (ih ?_ ?_) <;> rw [hingest]
    · simpa using horigin
    · exact hrows.of_mem fun _ => List.mem_cons_of_mem _

theorem appendBlock_rows {rows : List (List SampleWord)} {ev : Event} (horigin : ev.st.ingest.origin ≠ none)
    (hrows : RowsOk ev.st.ingest.channels (rows.map fun r => r.map normalise)) :
    Relation.ReflTransGen RowChange ev (appendBlock rows ev) :=
  .head (.count (i := { ev.st.ingest with dropouts := satAdd32 ev.st.ingest.dropouts (invalidWords rows) }) rfl rfl rfl)
    (appendRows_rows false horigin hrows)

theorem appendRows_ingest (gap : Bool) (rows : List (List RingWord)) (ev : Event) :
    (rows.foldl (appendRow gap) ev).st.ingest.channels = ev.st.ingest.channels ∧
      ((rows.foldl (appendRow gap) ev).st.ingest.origin = none ↔ ev.st.ingest.origin = none) := by
  induction rows generalizing ev with
  | nil => exact ⟨rfl, .rfl⟩
  | cons words rows ih =>
    obtain ⟨hchannels, horigin⟩ := ih (appendRow gap ev words)
    rw [appendRow_ingest] at hchannels horigin
    exact ⟨hchannels, horigin.trans (by simp)⟩

theorem restartStream_ingest (o : Ssn) (ev : Event) :
    (restartStream o ev).st.ingest = { ev.st.ingest with origin := some { origin := o, expected := o } } := by
  unfold restartStream restartReport
  exact (dropAll_spec SweepEntry.isDroppable .droppedRestart (ev.change fun s =>
    { s with ring := [], ingest := { s.ingest with origin := some { origin := o, expected := o } } })).1.ingest

theorem fillGap_rows (d : Nat) {ev : Event} (horigin : ev.st.ingest.origin ≠ none) :
    Relation.ReflTransGen RowChange ev (fillGap d ev) :=
  .head (.count (i := { ev.st.ingest with gapRows := satAdd32 ev.st.ingest.gapRows d }) rfl rfl rfl)
    (.head (.change (.cause _ .streamFault)) (appendRows_rows true horigin (rowsOk_gap _ _)))

theorem fillGap_ingest (d : Nat) (ev : Event) : (fillGap d ev).st.ingest.channels = ev.st.ingest.channels ∧
    ((fillGap d ev).st.ingest.origin = none ↔ ev.st.ingest.origin = none) := by
  unfold fillGap
  exact appendRows_ingest true _ _

theorem countStale_rows (n : Nat) (ev : Event) : Relation.ReflTransGen RowChange ev (countStale n ev) :=
  .tail (.single (.count (i := { ev.st.ingest with staleRows := satAdd32 ev.st.ingest.staleRows n }) rfl rfl rfl))
    (.change (.cause _ .streamFault))

theorem placeBlock_rows (first : Ssn) {expected : Ssn} {rows : List (List SampleWord)} {ev : Event}
    (horigin : ev.st.ingest.origin ≠ none) (hrows : RowsOk ev.st.ingest.channels (rows.map fun r => r.map normalise)) :
    Relation.ReflTransGen RowChange ev (placeBlock first expected rows ev) := by
  unfold placeBlock
  dsimp only
  split
  · exact appendBlock_rows horigin hrows
  split
  · refine (fillGap_rows _ horigin).trans (appendBlock_rows ?_ ?_)
    · exact fun h => horigin ((fillGap_ingest _ ev).2.1 h)
    · rw [(fillGap_ingest _ ev).1]
      exact hrows
  split
  · refine (Relation.ReflTransGen.head (.change (.cause ev .streamFault)) (.single (.restart _ first))).trans
      (appendBlock_rows ?_ ?_) <;> rw [restartStream_ingest]
    · simp
    · exact hrows
  · refine (countStale_rows _ ev).trans (appendBlock_rows horigin ?_)
    exact hrows.of_mem fun words hw => ((List.drop_sublist _ _).map _).mem hw

theorem handleRowBlock_rows (p : List Byte) (ev : Event) : Relation.ReflTransGen RowChange ev (handleRowBlock p ev) := by
  have hdiscard : Relation.ReflTransGen RowChange ev (discardBlock ev) :=
    .tail (.single (.count (i := { ev.st.ingest with discarded := satAdd32 ev.st.ingest.discarded 1 }) rfl rfl rfl))
      (.change (.cause _ .streamFault))
  unfold handleRowBlock
  dsimp only
  split
  · exact hdiscard
  split
  · exact hdiscard
  next hchannels =>
    have hrows := rowsOk_read (byteAt p 4) (halfAt p 5) p
    rw [not_not.1 hchannels] at hrows ⊢
    split
    next hnone => exact .head (.origin _ hnone) (appendBlock_rows (by simp) hrows)
    next o hsome => exact placeBlock_rows _ (by rw [hsome]; simp) hrows

theorem handleStreamStart_rows (o : Ssn) (ev : Event) :
    Relation.ReflTransGen RowChange ev (handleStreamStart o ev) := by
  unfold handleStreamStart Event.addCauseIf
  split
  · exact .head (.change (.cause ev .streamFault)) (.single (.restart _ o))
  · exact .single (.restart _ o)

theorem exec_stream_rows {c : Instr} (hc : c = .rowBlock ∨ c = .streamStart) {s t : State} (h : exec c s = .next t) :
    Leads RowChange s t := by
  have hevent : ∀ {f u ev}, s.takeSpread = some (f, u) → Relation.ReflTransGen RowChange (Event.start u) ev →
      Leads RowChange s ev.finish := fun htake hchain =>
    (Leads.mono (fun _ _ => .change) (.ofLinks (.takeSpread htake))).trans (.finish (fun _ _ => .change) hchain)
  rcases hc with rfl | rfl
  · change execRowBlock s = .next t at h
    unfold execRowBlock at h
    split at h <;> obtain rfl := Host.Outcome.next.inj h
    · exact .refl s
    next f u htake =>
      split
      · exact hevent htake (handleRowBlock_rows _ _)
      · exact .refl s
  · change execStreamStart s = .next t at h
    unfold execStreamStart at h
    split at h <;> obtain rfl := Host.Outcome.next.inj h
    · exact .refl s
    next f u htake =>
      split
      · exact hevent htake (handleStreamStart_rows _ _)
      · exact .refl s

/-- What `happens_keeps` says, with the stream's commands row by row. -/
theorem happens_keeps_rows {P : Event → Prop} {c : Option Instr} {s t : State}
    (hchange : ∀ a b, Change a b → P a → P b) (hclock : ∀ a b, ClockChange a b → P a → P b)
    (hrow : ∀ a b, RowChange a b → P a → P b)
    (hsingle : ∀ i u ev, c = some i → s.LinksMove u → Single i u ev → P (Event.start u) → P ev)
    (hs : P (Event.start s)) (h : happens c s t) : P (Event.start t) := by
  by_cases hc : c = some .rowBlock ∨ c = some .streamStart
  · have hstream : ∃ i, c = some i ∧ (i = .rowBlock ∨ i = .streamStart) :=
      hc.elim (fun h => ⟨_, h, .inl rfl⟩) fun h => ⟨_, h, .inr rfl⟩
    obtain ⟨i, rfl, hi⟩ := hstream
    exact (exec_stream_rows hi h).keeps hrow hs
  · cases happens_course h with
    | time h => exact h.keeps hclock hs
    | stream hc' _ => exact (hc hc').elim
    | own hplain hover =>
      obtain ⟨u, ev, hu, hown, hchain⟩ := hover
      have hev : P ev := hsingle _ _ _ rfl hu hown (hchange _ _ (.links hu) hs)
      clear hown
      generalize Event.start t = last at hchain ⊢
      induction hchain with
      | refl => exact hev
      | tail _ hlast ih => exact hchange _ _ hlast ih

/-! ### Ring, ingest and monitor in other changes -/

/-- The changes of every event leave the ring and the ingest unit, and the monitor but for latched flags. -/
theorem Change.keeps_ring {a b : Event} (h : Change a b) : b.st.ring = a.st.ring ∧ b.st.ingest = a.st.ingest := by
  cases h with
  | flush => simp
  | links h => exact ⟨h.ring, h.ingest⟩
  | @settle e qc fails =>
    obtain ⟨ev1, hst, -, h⟩ := settleSweep_cases e (e.settle qc fails) a
    rcases h with h | ⟨-, h⟩ <;> rw [h]
    · rw [hst]; exact ⟨rfl, rfl⟩
    · have haside := resolve_aside .rejectedQc none (e.settle qc fails) ev1
      rw [hst] at haside
      exact ⟨haside.ring, haside.ingest⟩
  | resolve => exact ⟨(resolve_aside _ _ _ _).ring, (resolve_aside _ _ _ _).ingest⟩
  | sealed =>
    rw [sealSlot_eq]
    unfold State.sealedAs
    dsimp only
    split <;> exact ⟨rfl, rfl⟩
  | _ => exact ⟨rfl, rfl⟩

theorem sealMoved_ring (fl : Fin Config.fleets) (vp : Word32) (ev : Event) :
    (sealMoved fl vp ev).st.ring = ev.st.ring ∧ (sealMoved fl vp ev).st.ingest = ev.st.ingest ∧
      (sealMoved fl vp ev).st.monitor = ev.st.monitor := by
  rcases sealMoved_cases fl vp ev with h | ⟨k, st, -, -, h⟩ <;> rw [h]
  · exact ⟨rfl, rfl, rfl⟩
  · rw [sealSlot_eq]
    unfold State.sealedAs
    dsimp only
    split <;> exact ⟨rfl, rfl, rfl⟩

theorem resolveMerged_aside (j : Job) (sc : Scratch) (ev : Event) : ev.st.SameAside (resolveMerged j sc ev).st := by
  rcases resolveMerged_cases j sc ev with h | ⟨e, -, h⟩ <;> rw [h]
  · exact .refl _
  · exact resolve_aside _ _ _ _

theorem passPort_ring (k : Fin Config.stackSlots) (s : State) : (passPort k s).ring = s.ring ∧
    (passPort k s).ingest = s.ingest ∧ (passPort k s).monitor = s.monitor := by
  unfold passPort beginMerge
  split
  · exact ⟨rfl, rfl, rfl⟩
  · split <;> exact ⟨rfl, rfl, rfl⟩

/-- The commands that leave the ring, the ingest unit and the monitor. -/
theorem Single.keeps_ring {c : Instr} {s : State} {ev : Event} (h : Single c s ev) (hreset : c ≠ .powerOn)
    (hsetup : c ≠ .setupStream) (hclear : c ≠ .deviceClear) : ev.st.ring = s.ring ∧ ev.st.ingest = s.ingest ∧
      (c ≠ .channelSet → ev.st.monitor = s.monitor) := by
  cases h with
  | reset => exact (hreset rfl).elim
  | setup => exact (hsetup rfl).elim
  | clear => exact (hclear rfl).elim
  | channelSet => exact ⟨rfl, rfl, fun h => (h rfl).elim⟩
  | @fresh _ fl vp =>
    obtain ⟨hring, hingest, hmonitor⟩ := sealMoved_ring fl vp (Event.start s)
    generalize sealMoved fl vp (Event.start s) = ev at hring hingest hmonitor
    exact ⟨hring, hingest, fun _ => hmonitor⟩
  | correlate => unfold askPort; dsimp only; split <;> exact ⟨rfl, rfl, fun _ => rfl⟩
  | merge =>
    rename_i l j sc _
    have happly : (applyMerge j sc s).ring = s.ring ∧ (applyMerge j sc s).ingest = s.ingest ∧
        (applyMerge j sc s).monitor = s.monitor := by
      unfold applyMerge; split <;> exact ⟨rfl, rfl, rfl⟩
    obtain ⟨hring, hingest, hmonitor⟩ := happly
    have haside := resolveMerged_aside j sc (Event.start (applyMerge j sc s))
    generalize resolveMerged j sc (Event.start (applyMerge j sc s)) = ev at haside
    obtain ⟨hring', hingest', hmonitor'⟩ := passPort_ring j.slot (ev.st.setLane l .idle)
    exact ⟨hring'.trans (haside.ring.trans hring), hingest'.trans (haside.ingest.trans hingest),
      fun _ => hmonitor'.trans (haside.monitor.trans hmonitor)⟩
  | read => unfold moveToHarvesting; split <;> exact ⟨rfl, rfl, fun _ => rfl⟩
  | _ => exact ⟨rfl, rfl, fun _ => rfl⟩

end Sys2Proof.Machine

/-! PROOFS. The Sample Ring stays a consecutive run (R8, R18) over every step. -/

namespace Sys2Proof.Machine

/-! ### Runs of consecutive rows -/

theorem ofNat_succ (n : Nat) : BitVec.ofNat 32 (n + 1) = BitVec.ofNat 32 n + 1 := BitVec.ofNat_add _ _

/-- A consecutive run by the places of its rows. -/
theorem consecutive_iff {first : Ssn} {l : List RingRow} :
    consecutive first l ↔ ∀ (i : Nat) (r : RingRow), l[i]? = some r → r.ssn = first + BitVec.ofNat 32 i := by
  induction l generalizing first with
  | nil => simp [consecutive]
  | cons a l ih =>
    rw [consecutive, ih]
    constructor
    · rintro ⟨ha, hl⟩ i r hr
      cases i with
      | zero =>
        obtain rfl : a = r := by simpa using hr
        simpa using ha
      | succ i => rw [hl i r (by simpa using hr), ofNat_succ]; bv_omega
    · intro h
      refine ⟨by simpa using h 0 a rfl, fun i r hr => ?_⟩
      rw [h (i + 1) r (by simpa using hr), ofNat_succ]
      bv_omega

theorem consecutive_drop {first : Ssn} {l : List RingRow} (h : consecutive first l) (k : Nat) :
    consecutive (first + BitVec.ofNat 32 k) (l.drop k) := by
  rw [consecutive_iff] at *
  intro i r hr
  rw [List.getElem?_drop] at hr
  rw [h _ r hr, BitVec.ofNat_add, BitVec.add_assoc]

theorem consecutive_snoc {first : Ssn} {l : List RingRow} (h : consecutive first l) {r : RingRow}
    (hr : r.ssn = first + BitVec.ofNat 32 l.length) : consecutive first (l ++ [r]) := by
  rw [consecutive_iff] at *
  intro i x hx
  rcases getElem?_snoc hx with hx | ⟨rfl, rfl⟩
  · exact h i x hx
  · exact hr

/-! ### The invariant by its rules -/

/-- `RingInv` with a name for each of its rules, for a ring and an ingest unit. -/
structure RingRules (ring : List RingRow) (ingest : Ingest) : Prop where
  length : ring.length ≤ Config.ringRows
  channels : ingest.channels ≤ Config.channels
  words : ∀ r ∈ ring, r.words.length = ingest.channels ∧ ∀ w ∈ r.words, w.ok
  unset : ingest.origin = none → ring = []
  run : ∀ o, ingest.origin = some o → consecutive (o.expected - BitVec.ofNat 32 ring.length) ring
  empty : ∀ o, ingest.origin = some o → ring = [] → o.expected = o.origin

theorem ringInv_iff (s : State) : RingInv s ↔ RingRules s.ring s.ingest := by
  constructor
  · rintro ⟨hlength, hchannels, hwords, horigin⟩
    refine ⟨hlength, hchannels, hwords, fun h => ?_, fun o h => ?_, fun o h => ?_⟩ <;> rw [h] at horigin
    · exact horigin
    · exact horigin.1
    · exact horigin.2
  · rintro ⟨hlength, hchannels, hwords, hunset, hrun, hempty⟩
    refine ⟨hlength, hchannels, hwords, ?_⟩
    cases h : s.ingest.origin with
    | none => exact hunset h
    | some o => exact ⟨hrun o h, hempty o h⟩

namespace RingRules

variable {ring : List RingRow} {ingest ingest' : Ingest}

/-- Counters count. -/
theorem of_origin (h : RingRules ring ingest) (hchannels : ingest'.channels = ingest.channels)
    (horigin : ingest'.origin = ingest.origin) : RingRules ring ingest' :=
  ⟨h.length, hchannels ▸ h.channels, hchannels ▸ h.words, fun ho => h.unset (horigin ▸ ho), fun o ho => h.run o (horigin ▸ ho),
    fun o ho => h.empty o (horigin ▸ ho)⟩

/-- An empty ring under a new origin. -/
theorem of_restart (hchannels : ingest'.channels ≤ Config.channels) {o : Ssn}
    (horigin : ingest'.origin = some { origin := o, expected := o }) : RingRules [] ingest' := by
  refine ⟨by simp, hchannels, by simp, fun _ => rfl, fun x hx => trivial, fun x hx _ => ?_⟩
  rw [horigin] at hx
  obtain rfl := Option.some.inj hx
  rfl

theorem of_unset (hchannels : ingest'.channels ≤ Config.channels) (horigin : ingest'.origin = none) : RingRules [] ingest' :=
  ⟨by simp, hchannels, by simp, fun _ => rfl, fun _ _ => trivial, fun o ho => by rw [horigin] at ho; simp at ho⟩

/-- One row more behind the newest (R19). -/
theorem append (h : RingRules ring ingest) {o : StreamOrigin} (horigin : ingest.origin = some o) {words : List RingWord}
    (hlength : words.length = ingest.channels) (hwords : ∀ w ∈ words, w.ok) :
    RingRules (newestRows (ring ++ [{ ssn := o.expected, words := words }]))
      { ingest with origin := some { o with expected := o.expected + 1 } } := by
  have hrows : Config.ringRows = 65536 := rfl
  have hlen : (ring ++ [({ ssn := o.expected, words := words } : RingRow)]).length = ring.length + 1 := List.length_append
  have hle : ring.length ≤ 65536 := h.length
  refine ⟨?_, h.channels, fun r hr => ?_, nofun, fun x hx => ?_, fun x hx hempty => ?_⟩
  · unfold newestRows
    rw [List.length_drop, hlen, hrows]
    omega
  · rcases List.mem_append.1 (List.mem_of_mem_drop hr) with hr | hr
    · exact h.words r hr
    · rw [List.mem_singleton.1 hr]; exact ⟨hlength, hwords⟩
  · obtain rfl := Option.some.inj hx
    have hrun := consecutive_snoc (h.run o horigin) (r := { ssn := o.expected, words := words })
      (BitVec.sub_add_cancel _ _).symm
    unfold newestRows
    rw [List.length_drop, hlen, hrows]
    generalize hk : ring.length + 1 - 65536 = k
    have hdrop := consecutive_drop hrun k
    have hfirst : o.expected - BitVec.ofNat 32 ring.length + BitVec.ofNat 32 k =
        o.expected + 1 - BitVec.ofNat 32 (ring.length + 1 - k) := by
      rcases Nat.lt_or_ge ring.length 65536 with hlt | hge
      · rw [show k = 0 by omega, Nat.sub_zero, ofNat_succ]
        bv_omega
      · rw [show k = 1 by omega, Nat.add_sub_cancel]
        bv_omega
    rw [← hfirst]
    exact hdrop
  · have := congrArg List.length hempty
    unfold newestRows at this
    rw [List.length_drop, hlen, hrows] at this
    simp at this
    omega

end RingRules

/-! ### Every step -/

theorem RingRules.appendRow {ev : Event} (h : RingRules ev.st.ring ev.st.ingest) (gap : Bool) {words : List RingWord}
    (horigin : ev.st.ingest.origin ≠ none) (hlength : words.length = ev.st.ingest.channels) (hwords : ∀ w ∈ words, w.ok) :
    RingRules (appendRow gap ev words).st.ring (appendRow gap ev words).st.ingest := by
  obtain ⟨o, ho⟩ := Option.ne_none_iff_exists'.1 horigin
  obtain ⟨hring, hingest, -⟩ := appendRow_spec gap ev words h.length
  have hnext : nextSsn ev.st = o.expected := by unfold nextSsn; rw [ho]
  rw [hring, hingest, hnext, ho]
  exact h.append ho hlength hwords

theorem RingRules.restartStream {ev : Event} (h : RingRules ev.st.ring ev.st.ingest) (o : Ssn) :
    RingRules (restartStream o ev).st.ring (restartStream o ev).st.ingest := by
  have hring : (Machine.restartStream o ev).st.ring = [] := by
    unfold Machine.restartStream restartReport
    exact (dropAll_spec SweepEntry.isDroppable .droppedRestart (ev.change fun s =>
      { s with ring := [], ingest := { s.ingest with origin := some { origin := o, expected := o } } })).1.ring
  rw [hring, restartStream_ingest]
  exact .of_restart h.channels rfl

theorem Change.keeps_ringRules {a b : Event} (h : Change a b) (ha : RingRules a.st.ring a.st.ingest) :
    RingRules b.st.ring b.st.ingest := by
  rw [h.keeps_ring.1, h.keeps_ring.2]
  exact ha

theorem RowChange.keeps_ringRules {a b : Event} (h : RowChange a b) (ha : RingRules a.st.ring a.st.ingest) :
    RingRules b.st.ring b.st.ingest := by
  cases h with
  | change h => exact h.keeps_ringRules ha
  | count hchannels _ horigin => exact ha.of_origin hchannels horigin
  | origin first hnone =>
    have hempty : a.st.ring = [] := ha.unset hnone
    show RingRules a.st.ring _
    rw [hempty]
    exact .of_restart ha.channels rfl
  | row gap horigin hlength hwords => exact ha.appendRow gap horigin hlength hwords
  | restart o => exact ha.restartStream o

theorem Single.keeps_ringRules {c : Instr} {s : State} {ev : Event} (h : Single c s ev) (hs : RingRules s.ring s.ingest) :
    RingRules ev.st.ring ev.st.ingest := by
  by_cases hreset : c = .powerOn
  · subst hreset
    cases h
    exact .of_unset (by simp [State.reset, Ingest.reset]) rfl
  by_cases hsetup : c = .setupStream
  · subst hsetup
    cases h with
    | setup i hchannels => exact .of_unset hchannels rfl
  by_cases hclear : c = .deviceClear
  · subst hclear
    cases h
    have haside := (resolveAll_spec (fun _ => true) .droppedClear (Event.start s)).1
    refine .of_unset ?_ rfl
    show (resolveAll (fun _ => true) .droppedClear (Event.start s)).st.ingest.channels ≤ Config.channels
    rw [haside.ingest]
    exact hs.channels
  · obtain ⟨hring, hingest, -⟩ := h.keeps_ring hreset hsetup hclear
    rw [hring, hingest]
    exact hs

/-- Settles O5: the ring changes row by row, at restarts, and where it is emptied with its origin. -/
theorem ringStaysConsecutive : Obligations.RingStaysConsecutive := by
  intro s t hs hstep
  obtain ⟨c, q, hhappens⟩ := step_happens hstep
  rw [ringInv_iff] at *
  refine happens_keeps_rows (s := { s with pending := q }) (P := fun ev => RingRules ev.st.ring ev.st.ingest) (fun _ _ h => h.keeps_ringRules)
    (fun a b h ha => ?_) (fun _ _ h => h.keeps_ringRules) (fun _ _ _ _ _ h => h.keeps_ringRules) hs hhappens
  cases h with
  | change h => exact h.keeps_ringRules ha
  | clock => exact ha

end Sys2Proof.Machine

/-! PROOFS. The Channel Monitor's entries stay in their ranges (R24, R25, R30, R32) over every step. -/

namespace Sys2Proof.Machine

/-- `MonitorInv` with a name for each of its rules, entry by entry. -/
structure MonitorRules (channels : Nat) (m : Monitor) : Prop where
  entry : ∀ i : Fin Config.channels, (m.table[i]).ok ∧ (m.table[i]).intervalSum ≤ m.position * 536870912
  above : ∀ i : Fin Config.channels, channels ≤ i.val → (m.table[i]).intervalSum = 0
  position : m.position ≤ 1023
  origin : m.origin = none → m.position = 0

theorem forall_mem_drop_iff {α : Type} {n : Nat} {v : Vector α n} {k : Nat} {P : α → Prop} :
    (∀ a ∈ v.toList.drop k, P a) ↔ ∀ i : Fin n, k ≤ i.val → P v[i] := by
  constructor
  · intro h i hi
    refine h _ (List.mem_drop_iff_getElem.2 ⟨i.val - k, by simp; omega, ?_⟩)
    have hshift : k + (i.val - k) = i.val := by omega
    simp [hshift]
  · intro h a ha
    obtain ⟨j, hj, rfl⟩ := List.mem_drop_iff_getElem.1 ha
    rw [Vector.length_toList] at hj
    exact h ⟨k + j, by omega⟩ (by simp)

theorem monitorInv_iff (s : State) : MonitorInv s ↔ MonitorRules s.ingest.channels s.monitor := by
  have hall := forall_mem_drop_iff (v := s.monitor.table) (k := 0)
    (P := fun c => c.ok ∧ c.intervalSum ≤ s.monitor.position * 536870912)
  rw [List.drop_zero] at hall
  have habove := forall_mem_drop_iff (v := s.monitor.table) (k := s.ingest.channels) (P := fun c => c.intervalSum = 0)
  unfold MonitorInv
  rw [hall, habove]
  constructor
  · rintro ⟨hentry, habove, hposition, horigin⟩
    exact ⟨fun i => hentry i (Nat.zero_le _), habove, Nat.le_of_lt_succ hposition, horigin⟩
  · rintro ⟨hentry, habove, hposition, horigin⟩
    exact ⟨fun i _ => hentry i, habove, Nat.lt_succ_of_le hposition, horigin⟩

/-! ### One entry -/

theorem takeSample_ok {c : Channel} (h : c.ok) (gap : Bool) (w : RingWord) : (takeSample gap c w).ok := by
  unfold takeSample
  split
  next hactive =>
    obtain ⟨hdead, hnoise, hrun, hlevel, hstate, -⟩ := h
    exact ⟨hdead, hnoise, hrun, hlevel, hstate, fun h => by simp [hactive] at h⟩
  · exact h

theorem takeSample_sum_le {c : Channel} {n : Nat} (h : c.intervalSum ≤ n * 536870912) (gap : Bool) {w : RingWord}
    (hw : w.ok) : (takeSample gap c w).intervalSum ≤ (n + 1) * 536870912 := by
  obtain ⟨hlo, hhi, -⟩ := hw
  have habs : w.x.natAbs ≤ 536870912 := by omega
  have hmore : c.intervalSum + w.x.natAbs ≤ (n + 1) * 536870912 := by
    rw [Nat.succ_mul]; exact Nat.add_le_add h habs
  unfold takeSample
  split
  · exact hmore
  · exact (Nat.le_add_right _ _).trans hmore

theorem completeInterval_ok {c : Channel} (h : c.ok) (hsum : c.intervalSum ≤ 1024 * 536870912) :
    (completeInterval c).ok := by
  obtain ⟨hdead, hnoise, hrun, hlevel, hstate, hinactive⟩ := h
  cases hactive : c.active with
  | false => rw [completeInterval_of_inactive hactive]; exact ⟨hdead, hnoise, hrun, hlevel, hstate, hinactive⟩
  | true =>
    cases hpartial : c.partialMark with
    | true =>
      rw [completeInterval_of_partial hactive hpartial]
      exact ⟨hdead, hnoise, hrun, hlevel, hstate, fun h => by simp [hactive] at h⟩
    | false =>
      rw [completeInterval_of_judged hactive hpartial ⟨hdead, hnoise, hrun, hlevel, hstate, hinactive⟩]
      refine ⟨hdead, hnoise, ?_, ?_, ?_, fun h => by simp [hactive] at h⟩
      · dsimp only
        split <;> omega
      · dsimp only [intervalLevel]
        omega
      · dsimp only
        split
        · split
          next hthree => simp [hthree]
          next hnot => rw [hstate]; omega
        · simp

theorem completeInterval_sum {c : Channel} (h : c.ok) : (completeInterval c).intervalSum = 0 := by
  cases hactive : c.active with
  | false =>
    rw [completeInterval_of_inactive hactive]
    exact (h.2.2.2.2.2 hactive).2.2.1
  | true =>
    cases hpartial : c.partialMark with
    | true => rw [completeInterval_of_partial hactive hpartial]
    | false => rw [completeInterval_of_judged hactive hpartial h]

theorem resetChannel_ok {c : Channel} (h : c.ok) : (resetChannel c).ok := by
  obtain ⟨hdead, hnoise, -, hlevel, -⟩ := h
  exact ⟨hdead, hnoise, Nat.zero_le _, hlevel, by simp [resetChannel], fun _ => ⟨rfl, rfl, rfl, rfl⟩⟩

theorem clearChannel_ok {c : Channel} (h : c.ok) : (clearChannel c).ok := by
  obtain ⟨hdead, hnoise, -⟩ := h
  exact ⟨hdead, hnoise, Nat.zero_le _, Nat.zero_le _, by simp [clearChannel, resetChannel],
    fun _ => ⟨rfl, rfl, rfl, rfl⟩⟩

theorem writeChannel_ok {c : Channel} (h : c.ok) (position : Nat) (r : ChannelRecord) :
    (writeChannel position c r).ok ∧ ((writeChannel position c r).intervalSum = c.intervalSum ∨
      (writeChannel position c r).intervalSum = 0) := by
  obtain ⟨-, -, hrun, hlevel, hstate, hinactive⟩ := h
  have hdead := clamp_range (lo := 0) (hi := 32767) (v := r.deadThreshold) (by omega)
  have hnoise := clamp_range (lo := 0) (hi := 32767) (v := r.noiseThreshold) (by omega)
  unfold writeChannel
  dsimp only
  split
  next hactive _ => exact ⟨⟨hdead.2, hnoise.2, hrun, hlevel, hstate, hinactive⟩, .inl rfl⟩
  next hactive _ => exact ⟨⟨hdead.2, hnoise.2, hrun, hlevel, hstate, hinactive⟩, .inl rfl⟩
  · exact ⟨⟨hdead.2, hnoise.2, hrun, hlevel, hstate, nofun⟩, .inr rfl⟩
  · exact ⟨⟨hdead.2, hnoise.2, Nat.zero_le _, hlevel, by simp, fun _ => ⟨rfl, rfl, rfl, rfl⟩⟩, .inr rfl⟩

theorem writeChannels_getElem (position first : Nat) (records : List ChannelRecord)
    (v : Vector Channel Config.channels) (i : Fin Config.channels) :
    (writeChannels position first records v)[i] =
      if first ≤ i.val then
        match records[i.val - first]? with
        | none => v[i]
        | some r => writeChannel position v[i] r
      else v[i] := by
  have hlist : (writeChannels position first records v).toList =
      v.toList.take first ++ zipFirst (writeChannel position) (v.toList.drop first) records := rfl
  have hv : v.toList[i.val]? = some v[i] := by simp
  have hout : (writeChannels position first records v).toList[i.val]? =
      some (writeChannels position first records v)[i] := by simp
  refine Option.some.inj (hout.symm.trans ?_)
  rw [hlist]
  by_cases hi : i.val < first
  · rw [List.getElem?_append_left (by simp; omega), List.getElem?_take_of_lt hi, hv, if_neg (by omega)]
  · have hshift : first + (i.val - first) = i.val := by omega
    have hlen : (v.toList.take first).length = first := by simp; omega
    rw [List.getElem?_append_right (by omega), hlen, zipFirst_getElem?, List.getElem?_drop, hshift, hv,
      if_pos (by omega)]
    cases records[i.val - first]? <;> rfl

/-! ### The monitor -/

namespace MonitorRules

variable {channels : Nat} {m : Monitor}

/-- A row of C words in range is handed on (R30). -/
theorem takeRow (h : MonitorRules channels m) (ssn : Ssn) (gap : Bool) {words : List RingWord}
    (hlength : words.length = channels) (hwords : ∀ w ∈ words, w.ok) :
    MonitorRules channels (m.takeRow channels ssn gap words) := by
  -- An entry behind its sample: one row's worth more, and nothing at or above C.
  have hsample : ∀ i : Fin Config.channels, ((zipFirstVec (takeSample gap) m.table words)[i]).ok ∧
      ((zipFirstVec (takeSample gap) m.table words)[i]).intervalSum ≤ (m.position + 1) * 536870912 ∧
      (channels ≤ i.val → ((zipFirstVec (takeSample gap) m.table words)[i]).intervalSum = 0) := by
    intro i
    obtain ⟨hok, hsum⟩ := h.entry i
    have hget : (zipFirstVec (takeSample gap) m.table words)[i] = match words[i.val]? with
        | none => m.table[i]
        | some w => takeSample gap m.table[i] w := by
      refine (zipFirstVec_getElem (takeSample gap) m.table words i.val i.isLt).trans ?_
      cases words[i.val]? <;> rfl
    rw [hget]
    cases hw : words[i.val]? with
    | none => exact ⟨hok, hsum.trans (Nat.mul_le_mul_right _ (Nat.le_succ _)), h.above i⟩
    | some w =>
      have hwok := hwords w (List.mem_of_getElem? hw)
      refine ⟨takeSample_ok hok gap w, takeSample_sum_le hsum gap hwok, fun hi => ?_⟩
      have := (List.getElem?_eq_some_iff.1 hw).1
      omega
  have hget := Monitor.takeRow_table_getElem h.position h.origin channels ssn gap words
  have heq := Monitor.takeRow_eq h.position h.origin channels ssn gap words
  have hposition : (m.takeRow channels ssn gap words).position = (m.position + 1) % 1024 := by rw [heq]
  have horigin : (m.takeRow channels ssn gap words).origin = some (m.origin.getD ssn) := by rw [heq]
  have hmax := h.position
  refine ⟨fun i => ?_, fun i hi => ?_, ?_, fun hnone => ?_⟩
  · obtain ⟨hok, hsum, habove⟩ := hsample i
    rw [hget, hposition]
    split
    next hlast =>
      refine ⟨completeInterval_ok hok (by rw [hlast.1] at hsum; exact hsum), ?_⟩
      rw [completeInterval_sum hok]
      exact Nat.zero_le _
    next hnot =>
      refine ⟨hok, ?_⟩
      by_cases hlast : m.position = 1023
      · rw [habove (by omega)]; exact Nat.zero_le _
      · rw [Nat.mod_eq_of_lt (by omega)]; exact hsum
  · obtain ⟨hok, -, habove⟩ := hsample i
    rw [hget, if_neg (by omega)]
    exact habove hi
  · rw [hposition]; omega
  · rw [horigin] at hnone; simp at hnone

/-- A reset of every entry, with no row handed on yet. -/
theorem of_reset (h : MonitorRules channels m) {f : Channel → Channel} (hf : ∀ c : Channel, c.ok → (f c).ok ∧ (f c).intervalSum = 0)
    (channels' : Nat) (origin : Option Ssn) :
    MonitorRules channels' { table := mapVec f m.table, origin := origin, position := 0 } := by
  have hget : ∀ i : Fin Config.channels, (mapVec f m.table)[i] = f m.table[i] := fun i => mapVec_getElem _ _ _ i.isLt
  refine ⟨fun i => ?_, fun i _ => ?_, Nat.zero_le _, fun _ => rfl⟩
  · obtain ⟨hok, hsum⟩ := hf _ (h.entry i).1
    rw [hget, hsum]
    exact ⟨hok, Nat.zero_le _⟩
  · rw [hget]; exact (hf _ (h.entry i).1).2

/-- The table changes entry by entry, with sums kept or emptied. -/
theorem of_table (h : MonitorRules channels m) {table : Vector Channel Config.channels}
    (htable : ∀ i : Fin Config.channels, (m.table[i]).ok → (table[i]).ok ∧
      ((table[i]).intervalSum = (m.table[i]).intervalSum ∨ (table[i]).intervalSum = 0)) :
    MonitorRules channels { m with table := table } := by
  refine ⟨fun i => ?_, fun i hi => ?_, h.position, h.origin⟩
  · obtain ⟨hok, hsum⟩ := h.entry i
    obtain ⟨hok', hsum'⟩ := htable i hok
    exact ⟨hok', by rcases hsum' with hsum' | hsum' <;> rw [hsum']; exacts [hsum, Nat.zero_le _]⟩
  · rcases (htable i (h.entry i).1).2 with hsum | hsum
    · exact hsum.trans (h.above i hi)
    · exact hsum

end MonitorRules

/-! ### Every step -/

/-- The rules of an event's monitor. -/
def Event.MonitorOk (ev : Event) : Prop := MonitorRules ev.st.ingest.channels ev.st.monitor

theorem clearLatches_rules {channels : Nat} {m : Monitor} (h : MonitorRules channels m) (first n : Nat) :
    MonitorRules channels { m with table := clearLatches first n m.table } := by
  refine h.of_table fun i hok => ?_
  rw [clearLatches_getElem]
  split
  · exact ⟨hok, .inl rfl⟩
  · exact ⟨hok, .inl rfl⟩

theorem Change.keeps_monitorOk {a b : Event} (h : Change a b) (ha : a.MonitorOk) : b.MonitorOk := by
  unfold Event.MonitorOk at *
  cases h with
  | latches first n => exact clearLatches_rules ha first n
  | flush => simpa using ha
  | links h => rw [Event.change_st, h.ingest, h.monitor]; exact ha
  | @settle e qc fails =>
    obtain ⟨ev1, hst, -, h⟩ := settleSweep_cases e (e.settle qc fails) a
    rcases h with h | ⟨-, h⟩ <;> rw [h]
    · rw [hst]; exact ha
    · have haside := resolve_aside .rejectedQc none (e.settle qc fails) ev1
      rw [hst] at haside
      rw [haside.ingest, haside.monitor]
      exact ha
  | resolve => rw [(resolve_aside _ _ _ _).ingest, (resolve_aside _ _ _ _).monitor]; exact ha
  | sealed =>
    rw [sealSlot_eq]
    unfold State.sealedAs
    dsimp only
    split <;> exact ha
  | _ => exact ha

theorem RowChange.keeps_monitorOk {a b : Event} (h : RowChange a b) (hring : RingRules a.st.ring a.st.ingest)
    (ha : a.MonitorOk) : b.MonitorOk := by
  cases h with
  | change h => exact h.keeps_monitorOk ha
  | count hchannels =>
    unfold Event.MonitorOk at *
    show MonitorRules _ a.st.monitor
    rw [Event.change_st]
    dsimp only
    rw [hchannels]
    exact ha
  | origin => exact ha
  | @row gap words horigin hlength hwords =>
    obtain ⟨-, hingest, hmonitor⟩ := appendRow_spec gap a words hring.length
    unfold Event.MonitorOk at *
    rw [hingest, hmonitor]
    exact ha.takeRow _ gap hlength hwords
  | restart o =>
    have haside := (dropAll_spec SweepEntry.isDroppable .droppedRestart (a.change fun s =>
      { s with ring := [], ingest := { s.ingest with origin := some { origin := o, expected := o } } })).1
    have hmonitor : (restartStream o a).st.monitor = a.st.monitor.restart (some o) :=
      congrArg (fun m : Monitor => m.restart (some o)) haside.monitor
    unfold Event.MonitorOk at *
    rw [hmonitor, restartStream_ingest]
    exact ha.of_reset (fun c hc => ⟨resetChannel_ok hc, rfl⟩) _ _

theorem monitorRules_reset : MonitorRules 0 Monitor.reset := by
  have h := (monitorInv_iff State.reset).1 monitorInv_reset
  exact h

theorem Single.keeps_monitorOk {c : Instr} {s : State} {ev : Event} (h : Single c s ev) (hs : (Event.start s).MonitorOk) :
    ev.MonitorOk := by
  by_cases hreset : c = .powerOn
  · subst hreset
    cases h
    exact monitorRules_reset
  by_cases hsetup : c = .setupStream
  · subst hsetup
    cases h
    exact MonitorRules.of_reset (m := s.monitor) hs (fun c hc => ⟨resetChannel_ok hc, rfl⟩) _ _
  by_cases hclear : c = .deviceClear
  · subst hclear
    cases h
    have haside := (resolveAll_spec (fun _ => true) .droppedClear (Event.start s)).1
    have hcleared : MonitorRules s.ingest.channels s.monitor.clear :=
      MonitorRules.of_reset (m := s.monitor) hs (fun c hc => ⟨clearChannel_ok hc, rfl⟩) _ _
    unfold Event.MonitorOk clearEvent
    rw [Event.change_st]
    unfold clearBlocks
    dsimp only
    rw [haside.ingest, haside.monitor]
    exact hcleared
  by_cases hset : c = .channelSet
  · subst hset
    cases h with
    | channelSet first records =>
      refine MonitorRules.of_table (m := s.monitor) hs fun i hok => ?_
      rw [writeChannels_getElem]
      split
      · split
        · exact ⟨hok, .inl rfl⟩
        · exact writeChannel_ok hok _ _
      · exact ⟨hok, .inl rfl⟩
  · obtain ⟨-, hingest, hmonitor⟩ := h.keeps_ring hreset hsetup hclear
    unfold Event.MonitorOk
    rw [hingest, hmonitor hset]
    exact hs

/-- Settles O6: rows of C words in range, interval completions, resets and CHANNEL SET keep every entry in range. -/
theorem monitorStaysInRange : Obligations.MonitorStaysInRange := by
  intro s t hring hs hstep
  obtain ⟨c, q, hhappens⟩ := step_happens hstep
  rw [ringInv_iff] at hring
  rw [monitorInv_iff] at *
  have hkept := happens_keeps_rows (s := { s with pending := q })
    (P := fun ev => RingRules ev.st.ring ev.st.ingest ∧ ev.MonitorOk)
    (fun _ _ h ⟨hr, hm⟩ => ⟨h.keeps_ringRules hr, h.keeps_monitorOk hm⟩) (fun a b h ⟨hr, hm⟩ => ?_)
    (fun _ _ h ⟨hr, hm⟩ => ⟨h.keeps_ringRules hr, h.keeps_monitorOk hr hm⟩)
    (fun _ _ _ _ _ h ⟨hr, hm⟩ => ⟨h.keeps_ringRules hr, h.keeps_monitorOk hm⟩) ⟨hring, hs⟩ hhappens
  · exact hkept.2
  · cases h with
    | change h => exact ⟨h.keeps_ringRules hr, h.keeps_monitorOk hm⟩
    | clock => exact ⟨hr, hm⟩

end Sys2Proof.Machine

/-! PROOFS. T0 against the ring (R66, R67, R69), and what one appended row does to the sweep table (R73, R80, R81). -/

namespace Sys2Proof.Machine

/-! ### Oldest and newest row -/

theorem RingRules.oldest_newest {s : State} (h : RingRules s.ring s.ingest) {o : Ssn} (ho : s.oldest = some o) :
    1 ≤ s.ring.length ∧ s.newest = some (o + BitVec.ofNat 32 s.ring.length - 1) := by
  cases horigin : s.ingest.origin with
  | none => simp [State.oldest, h.unset horigin] at ho
  | some so =>
    have hrun := consecutive_iff.1 (h.run so horigin)
    unfold State.oldest at ho
    obtain ⟨r, hr, rfl⟩ := Option.map_eq_some_iff.1 ho
    have hfirst := hrun 0 r (by rw [← List.head?_eq_getElem?]; exact hr)
    have hpos : 1 ≤ s.ring.length := by
      cases hring : s.ring with
      | nil => simp [hring] at hr
      | cons a l => simp
    refine ⟨hpos, ?_⟩
    obtain ⟨last, hlast⟩ : ∃ last, s.ring[s.ring.length - 1]? = some last :=
      ⟨_, List.getElem?_eq_getElem (by omega)⟩
    have hssn := hrun _ last hlast
    unfold State.newest
    rw [List.getLast?_eq_getElem?, hlast, Option.map_some, hssn, hfirst]
    congr 1
    generalize s.ring.length = len at hpos
    obtain ⟨k, rfl⟩ : ∃ k, len = k + 1 := ⟨len - 1, by omega⟩
    rw [Nat.add_sub_cancel, ofNat_succ]
    bv_omega

theorem t0InBounds_iff {o t0 : Ssn} {len : Nat} (hpos : 1 ≤ len) (hlen : len ≤ 65536) :
    (ssnAtOrBefore o t0 && decide (ssnDistance t0 (o + BitVec.ofNat 32 len - 1) ≤ Config.leadRows)) = true ↔
      (t0 - o).toNat + 1 ≤ len + 32768 := by
  obtain ⟨k, hk, hofNat⟩ : ∃ k : Ssn, k.toNat + 1 = len ∧ BitVec.ofNat 32 len = k + 1 := by
    obtain ⟨m, rfl⟩ : ∃ m, len = m + 1 := ⟨len - 1, by omega⟩
    exact ⟨BitVec.ofNat 32 m, by rw [BitVec.toNat_ofNat, Nat.mod_eq_of_lt (by omega)], ofNat_succ m⟩
  have hdiff : t0 - (o + BitVec.ofNat 32 len - 1) = (t0 - o) - k := by rw [hofNat]; bv_omega
  have hlead : Config.leadRows = 32768 := rfl
  rw [Bool.and_eq_true, decide_eq_true_eq, ssnAtOrBefore_iff, ssnDistance, hlead, hdiff]
  generalize t0 - o = d
  have hd := d.isLt
  rw [BitVec.toInt_eq_toNat_cond, BitVec.toNat_sub]
  split <;> omega

theorem slipPasses_iff {last t0 : Ssn} {minSlip : Nat} (hslip : minSlip ≤ 32767) :
    decide ((max 1 minSlip : Int) ≤ ssnDistance t0 last) = true ↔
      max 1 minSlip ≤ (t0 - last).toNat ∧ (t0 - last).toNat ≤ 2147483647 := by
  rw [decide_eq_true_eq, ssnDistance]
  generalize t0 - last = d
  have hd := d.isLt
  rw [BitVec.toInt_eq_toNat_cond]
  split <;> omega

theorem t0InBounds_of_oldest {s : State} (h : RingRules s.ring s.ingest) {o : Ssn} (ho : s.oldest = some o) (t0 : Ssn) :
    t0InBounds s t0 = true ↔ (t0 - o).toNat + 1 ≤ s.ring.length + 32768 := by
  obtain ⟨hpos, hnewest⟩ := h.oldest_newest ho
  unfold t0InBounds
  rw [ho, hnewest]
  exact t0InBounds_iff hpos h.length

/-- Settles O29: the bounds check by the distance from the oldest row, the slip check by the signed distance. -/
theorem t0BoundsAndSlip : Obligations.T0BoundsAndSlip := by
  refine ⟨fun s t0 hring => ?_, fun r t0 hslip => ?_⟩
  · have h := (ringInv_iff s).1 hring
    cases ho : s.oldest with
    | none => unfold t0InBounds; rw [ho]
    | some o => exact t0InBounds_of_oldest h ho t0
  · unfold slipPasses
    cases r.lastT0 with
    | none => rfl
    | some last => exact slipPasses_iff hslip

/-! ### The sweep table at one row -/

/-- A row's departure or first arrival drops the entry (R80, R81). -/
def rowDrops (ring : List RingRow) (n : Ssn) (e : SweepEntry) : Bool :=
  match ring with
  | [] => decide (e.stage = .waiting) && !ssnAtOrBefore n e.t0
  | r :: _ => decide (Config.ringRows ≤ ring.length) && (e.isDroppable && ssnAtOrBefore e.t0 r.ssn)

/-- The entry is resolved REJECTED_QC at its data-complete row (log entry 21). -/
def rowRejects (n : Ssn) (e : SweepEntry) : Bool :=
  decide (e.dataRow = n) && e.dataComplete && decide (e.stage = .waiting) && e.isRejected

theorem SweepEntry.arrive_clock {s t : State} (h : t.clock = s.clock) (n : Ssn) (e : SweepEntry) :
    e.arrive t n = e.arrive s n := by
  unfold SweepEntry.arrive State.startTimer
  rw [h]

theorem DistinctNumbers.of_filter {s t : State} (h : DistinctNumbers s) {p : SweepEntry → Bool}
    (ht : t.sweeps = s.sweeps.filter p) : DistinctNumbers t := by
  unfold DistinctNumbers at *
  rw [ht]
  exact h.sublist (List.filter_sublist.map _)

/-- The table behind the departure of a full ring's oldest row (R80). -/
theorem departOldest_sweeps {ev : Event} (hd : DistinctNumbers ev.st) (n : Ssn) (hring : ev.st.ring ≠ []) :
    (departOldest ev).st.sweeps = ev.st.sweeps.filter fun e => !rowDrops ev.st.ring n e := by
  unfold departOldest rowDrops
  cases hr : ev.st.ring with
  | nil => exact (hring hr).elim
  | cons r rest =>
    dsimp only
    split
    next hfull =>
      simp only [hfull, decide_true, Bool.true_and]
      exact (dropAll_spec (fun e => e.isDroppable && ssnAtOrBefore e.t0 r.ssn) .droppedOverrun
        (ev.change fun s => { s with ring := rest })).2.2.1 hd
    next hfull =>
      rw [decide_eq_false hfull]
      simp

/-- The departure changes nothing of an empty ring. -/
theorem departOldest_of_empty {ev : Event} (h : ev.st.ring = []) : departOldest ev = ev := by
  unfold departOldest
  rw [h, if_neg (by decide)]

theorem departOldest_clock (ev : Event) : (departOldest ev).st.clock = ev.st.clock := by
  unfold departOldest
  split
  · split
    · rfl
    next r rest _ =>
      exact (dropAll_spec (fun e => e.isDroppable && ssnAtOrBefore e.t0 r.ssn) .droppedOverrun
        (ev.change fun s => { s with ring := rest })).1.clock
  · rfl

theorem arrivalReport_sweeps {ev : Event} (hd : DistinctNumbers ev.st) (n : Ssn) (wasEmpty : Bool) :
    (arrivalReport n wasEmpty ev).st.sweeps =
      (((ev.st.sweeps.filter fun e => !(wasEmpty && (decide (e.stage = .waiting) && !ssnAtOrBefore n e.t0))).map
        (SweepEntry.arrive ev.st n)).filter fun e => !rowRejects n e) := by
  have hfirst : ev.st.clock = (if wasEmpty then firstArrival n ev else ev).st.clock ∧
      (if wasEmpty then firstArrival n ev else ev).st.sweeps =
        ev.st.sweeps.filter fun e => !(wasEmpty && (decide (e.stage = .waiting) && !ssnAtOrBefore n e.t0)) := by
    cases wasEmpty with
    | false => exact ⟨rfl, by simp⟩
    | true =>
      have h := dropAll_spec (fun e => decide (e.stage = .waiting) && !ssnAtOrBefore n e.t0) .droppedRestart ev
      exact ⟨h.1.clock.symm, (h.2.2.1 hd).trans (by simp)⟩
  obtain ⟨hclock, hsweeps⟩ := hfirst
  unfold arrivalReport
  dsimp only
  generalize (if wasEmpty then firstArrival n ev else ev) = ev1 at hclock hsweeps
  have hd1 : DistinctNumbers (ev1.change fun s => { s with sweeps := s.sweeps.map (SweepEntry.arrive s n) }).st := by
    have hd' := hd.of_filter hsweeps
    unfold DistinctNumbers at *
    rw [Event.change_st, List.map_map, List.map_congr_left (f := SweepEntry.number ∘ SweepEntry.arrive ev1.st n)
      (g := SweepEntry.number) fun x _ => SweepEntry.arrive_number ev1.st n x]
    exact hd'
  rw [(resolveAll_spec _ _ _).2.2 hd1, Event.change_st, hsweeps]
  refine congrArg _ (List.map_congr_left fun x _ => SweepEntry.arrive_clock hclock.symm n x)

/-- The table behind one appended row (R73, R80, R81). -/
theorem appendRow_sweeps (gap : Bool) {ev : Event} (words : List RingWord) (hd : DistinctNumbers ev.st) :
    (appendRow gap ev words).st.sweeps =
      (((ev.st.sweeps.filter fun e => !rowDrops ev.st.ring (nextSsn ev.st) e).map
        (SweepEntry.arrive ev.st (nextSsn ev.st))).filter fun e => !rowRejects (nextSsn ev.st) e) := by
  have hclock : ((departOldest ev).change (storeRow (nextSsn ev.st) words)).st.clock = ev.st.clock :=
    departOldest_clock ev
  have harrive : SweepEntry.arrive ((departOldest ev).change (storeRow (nextSsn ev.st) words)).st (nextSsn ev.st) =
      SweepEntry.arrive ev.st (nextSsn ev.st) := funext fun e => SweepEntry.arrive_clock hclock _ e
  unfold appendRow
  dsimp only
  rw [handRow_st]
  cases hring : ev.st.ring with
  | nil =>
    have hsame : ((departOldest ev).change (storeRow (nextSsn ev.st) words)).st.sweeps = ev.st.sweeps := by
      rw [departOldest_of_empty hring]; rfl
    rw [arrivalReport_sweeps (by unfold DistinctNumbers; rw [hsame]; exact hd), harrive, hsame]
    simp [rowDrops]
  | cons r rest =>
    have hdepart := departOldest_sweeps hd (nextSsn ev.st) (by rw [hring]; simp)
    have hsame : ((departOldest ev).change (storeRow (nextSsn ev.st) words)).st.sweeps = (departOldest ev).st.sweeps := rfl
    rw [arrivalReport_sweeps (by unfold DistinctNumbers; rw [hsame]; exact hd.of_filter hdepart), harrive, hsame,
      hdepart, hring]
    simp

end Sys2Proof.Machine

/-! PROOFS. No sweep outlives its history (R63, R69, R73, R80, R81) over every step. -/

namespace Sys2Proof.Machine

/-! ### The invariant by its rules -/

/-- S and L are in range, and the data-complete row is T0+S+L-2 (R40, R58, R63). -/
def SweepEntry.windowOk (e : SweepEntry) : Prop :=
  windowInRange e.pilotLength e.copy.listen ∧ e.dataRow = e.t0 + BitVec.ofNat 32 (e.pilotLength + e.copy.listen - 2)

/-- The entry's T0 is not before the oldest row, and it is data complete where the ring reaches its data-complete row;
with an empty ring it waits (R69, R73, R81). -/
def SweepEntry.inHistory (ring : List RingRow) (e : SweepEntry) : Prop :=
  match ring with
  | [] => e.stage = .waiting ∧ e.dataComplete = false
  | r :: _ => ssnAtOrBefore r.ssn e.t0 = true ∧
      (e.dataComplete = true ↔ (e.t0 - r.ssn).toNat + (e.pilotLength + e.copy.listen - 2) < ring.length)

/-- What the history says of one entry. -/
structure EntryHistory (ring : List RingRow) (e : SweepEntry) : Prop where
  window : e.windowOk
  history : e.isDroppable = true → e.inHistory ring

/-- `HistoryInv` with a name for each of its rules. -/
structure HistoryRules (s : State) : Prop where
  ring : RingRules s.ring s.ingest
  numbers : DistinctNumbers s
  pilots : ∀ p : Fin Config.pilots, (s.pilots[p]).phase.InRange
  fleets : ∀ fl : Fin Config.fleets, 256 ≤ (s.fleets[fl]).params.listen ∧ (s.fleets[fl]).params.listen ≤ 8192
  entries : ∀ e ∈ s.sweeps, EntryHistory s.ring e

theorem historyInv_iff (s : State) : HistoryInv s ↔ HistoryRules s := by
  have hpilot : ∀ p : Fin Config.pilots, (s.pilots[p]).phase.InRange ↔
      match (s.pilots[p]).phase with
      | .empty => True
      | .filling n _ _ _ => 1024 ≤ n ∧ n ≤ 16384
      | .committing n _ _ => 1024 ≤ n ∧ n ≤ 16384
      | .ready n _ _ _ => 1024 ≤ n ∧ n ≤ 16384 := by
    intro p
    unfold PilotPhase.InRange
    cases (s.pilots[p]).phase <;> simp [PilotPhase.length?]
  have hhistory : ∀ e : SweepEntry, e.inHistory s.ring ↔
      match s.oldest with
      | none => e.stage = .waiting ∧ e.dataComplete = false
      | some o => ssnAtOrBefore o e.t0 = true ∧
          (e.dataComplete = true ↔ (e.t0 - o).toNat + (e.pilotLength + e.copy.listen - 2) < s.ring.length) := by
    intro e
    unfold SweepEntry.inHistory State.oldest
    cases s.ring <;> exact Iff.rfl
  constructor
  · rintro ⟨hring, hnumbers, ⟨hpilots, hfleets, hwindows⟩, hentries⟩
    exact ⟨(ringInv_iff s).1 hring, hnumbers, fun p => (hpilot p).2 (hpilots p), hfleets,
      fun e he => ⟨hwindows e he, fun hdrop => (hhistory e).2 (hentries e he hdrop)⟩⟩
  · rintro ⟨hring, hnumbers, hpilots, hfleets, hentries⟩
    exact ⟨(ringInv_iff s).2 hring, hnumbers,
      ⟨fun p => (hpilot p).1 (hpilots p), hfleets, fun e he => (hentries e he).window⟩,
      fun e he hdrop => (hhistory e).1 ((hentries e he).history hdrop)⟩

theorem resolveStack_pilots (k : Fin Config.stackSlots) (out : SweepOutcome) (ev : Event) :
    (resolveStack k out ev).st.pilots = ev.st.pilots := by
  unfold resolveStack
  split
  · rfl
  · dsimp only
    split
    · split
      · rw [enterSealed_eq]; rfl
      · rfl
    · rfl

/-- A resolution releases a pin and leaves the pilot slots' phases (R52). -/
theorem resolve_pilot_phase (out : SweepOutcome) (counts : Option JobCounts) (e : SweepEntry) (ev : Event)
    (p : Fin Config.pilots) : ((resolve out counts e ev).st.pilots[p]).phase = (ev.st.pilots[p]).phase := by
  have hremoved : ((removeEntry e ev.st).pilots[p]).phase = (ev.st.pilots[p]).phase := by
    have hset : (removeEntry e ev.st).pilots[p] = if e.pilot = p then
        { ev.st.pilots[e.pilot] with pins := (ev.st.pilots[e.pilot]).pins - 1 } else ev.st.pilots[p] := by
      refine Eq.trans ?_ (vector_set_getElem ev.st.pilots e.pilot p _)
      unfold removeEntry abortJob
      cases e.stage <;> rfl
    rw [hset]
    split
    next hp => subst hp; rfl
    · rfl
  unfold resolve
  dsimp only
  split
  · exact hremoved
  · exact (congrArg (fun v : Vector PilotSlot Config.pilots => (v[p]).phase) (resolveStack_pilots e.slot out _)).trans
      hremoved

namespace HistoryRules

variable {s t : State}

/-- What the rules read, with the entries one by one. -/
theorem of_entries (h : HistoryRules s) (hring : t.ring = s.ring) (hingest : t.ingest = s.ingest)
    (hnumbers : DistinctNumbers t) (hpilots : t.pilots = s.pilots)
    (hfleets : ∀ fl : Fin Config.fleets, (t.fleets[fl]).params = (s.fleets[fl]).params)
    (hentries : ∀ e ∈ t.sweeps, EntryHistory s.ring e) : HistoryRules t :=
  ⟨by rw [hring, hingest]; exact h.ring, hnumbers, by rw [hpilots]; exact h.pilots,
    fun fl => by rw [hfleets]; exact h.fleets fl, by rw [hring]; exact hentries⟩

theorem of_eq (h : HistoryRules s) (hring : t.ring = s.ring) (hingest : t.ingest = s.ingest)
    (hpilots : t.pilots = s.pilots) (hfleets : ∀ fl : Fin Config.fleets, (t.fleets[fl]).params = (s.fleets[fl]).params)
    (hsweeps : t.sweeps = s.sweeps) : HistoryRules t :=
  h.of_entries hring hingest (by unfold DistinctNumbers; rw [hsweeps]; exact h.numbers) hpilots hfleets
    (by rw [hsweeps]; exact h.entries)

/-- One entry changes. -/
theorem updateSweep (h : HistoryRules s) {n : Word32} {f : SweepEntry → SweepEntry}
    (hnumber : ∀ x ∈ s.sweeps, x.number = n → (f x).number = n)
    (hf : ∀ x ∈ s.sweeps, x.number = n → EntryHistory s.ring (f x)) : HistoryRules (s.updateSweep n f) := by
  refine h.of_entries rfl rfl ?_ rfl (fun _ => rfl) (List.forall_mem_map.2 fun x hx => ?_)
  · have hmap : (s.sweeps.map fun x => if x.number = n then f x else x).map SweepEntry.number =
        s.sweeps.map SweepEntry.number := by
      rw [List.map_map]
      refine List.map_congr_left fun x hx => ?_
      simp only [Function.comp]
      split
      next hn => rw [hnumber x hx hn, hn]
      · rfl
    unfold DistinctNumbers State.updateSweep
    rw [hmap]
    exact h.numbers
  · split
    next hn => exact hf x hx hn
    · exact h.entries x hx

theorem resolve {ev : Event} (h : HistoryRules ev.st) (out : SweepOutcome) (counts : Option JobCounts) (e : SweepEntry)
    : HistoryRules (resolve out counts e ev).st := by
  have haside := resolve_aside out counts e ev
  have hsweeps := resolve_sweeps out counts e ev
  have hpilots : ∀ p : Fin Config.pilots, ((Machine.resolve out counts e ev).st.pilots[p]).phase = (ev.st.pilots[p]).phase := by
    exact resolve_pilot_phase out counts e ev
  refine ⟨by rw [haside.ring, haside.ingest]; exact h.ring, ?_, fun p => by rw [hpilots]; exact h.pilots p,
    by rw [haside.fleets]; exact h.fleets, fun x hx => ?_⟩
  · unfold DistinctNumbers
    rw [hsweeps]
    exact h.numbers.sublist ((removeFirst_sublist _ _).map _)
  · rw [hsweeps] at hx
    rw [haside.ring]
    exact h.entries x (removeFirst_mem hx)

/-- No sweep is left that could be dropped. -/
theorem of_undroppable (hring : RingRules t.ring t.ingest) (hnumbers : DistinctNumbers t)
    (hpilots : ∀ p : Fin Config.pilots, (t.pilots[p]).phase.InRange)
    (hfleets : ∀ fl : Fin Config.fleets, 256 ≤ (t.fleets[fl]).params.listen ∧ (t.fleets[fl]).params.listen ≤ 8192)
    (hentries : ∀ e ∈ t.sweeps, e.windowOk ∧ e.isDroppable = false) : HistoryRules t :=
  ⟨hring, hnumbers, hpilots, hfleets, fun e he => ⟨(hentries e he).1, fun hdrop => by
    rw [(hentries e he).2] at hdrop; simp at hdrop⟩⟩

end HistoryRules

/-! ### Changes of every event -/

theorem EntryHistory.of_same {ring : List RingRow} {e e' : SweepEntry} (h : EntryHistory ring e) (ht0 : e'.t0 = e.t0)
    (hlength : e'.pilotLength = e.pilotLength) (hcopy : e'.copy = e.copy) (hrow : e'.dataRow = e.dataRow)
    (hcomplete : e'.dataComplete = e.dataComplete) (hdrop : e'.isDroppable = true → e.isDroppable = true)
    (hwaiting : e.stage = .waiting → e.dataComplete = false → e'.stage = .waiting) : EntryHistory ring e' := by
  refine ⟨?_, fun hd => ?_⟩
  · unfold SweepEntry.windowOk
    rw [hlength, hcopy, hrow, ht0]
    exact h.window
  · have hold := h.history (hdrop hd)
    unfold SweepEntry.inHistory at *
    rw [ht0, hlength, hcopy, hcomplete]
    split at hold
    · exact ⟨hwaiting hold.1 hold.2, hold.2⟩
    · exact hold

theorem SweepEntry.settle_history {ring : List RingRow} {e : SweepEntry} (h : EntryHistory ring e) (qc : QcOutcome)
    (fails : FailSet) : EntryHistory ring (e.settle qc fails) := by
  have hstage : (e.settle qc fails).stage = e.stage ∨ e.stage = .waiting := by
    unfold SweepEntry.settle
    dsimp only
    split
    next hall => simp only [Bool.and_eq_true, decide_eq_true_eq] at hall; exact .inr hall.2
    · exact .inl rfl
  refine h.of_same rfl rfl rfl rfl rfl (fun hd => ?_) fun hwaiting hcomplete => ?_
  · rcases hstage with hstage | hstage
    · unfold SweepEntry.isDroppable at *; rwa [hstage] at hd
    · simp [SweepEntry.isDroppable, hstage, Stage.isMerging]
  · unfold SweepEntry.settle
    dsimp only
    rw [hcomplete]
    simpa using hwaiting

theorem Change.keeps_params {a b : Event} (h : Change a b) (fl : Fin Config.fleets) :
    (b.st.fleets[fl]).params = (a.st.fleets[fl]).params :=
  congrArg (fun s : Settings => (s.fleets fl).1) h.keeps_settings

theorem Change.keeps_historyRules {a b : Event} (h : Change a b) (ha : HistoryRules a.st) : HistoryRules b.st := by
  have hparams := h.keeps_params
  cases h with
  | cause => exact ha
  | flush => exact ha.of_eq (by simp) (by simp) (by simp) hparams (by simp)
  | links h => exact ha.of_eq h.ring h.ingest h.pilots hparams h.sweeps
  | pilots hmoves =>
    exact ⟨ha.ring, ha.numbers, fun p => (hmoves p).length (ha.pilots p), ha.fleets, ha.entries⟩
  | latches => exact ha.of_eq rfl rfl rfl hparams rfl
  | @settle e qc fails he =>
    obtain ⟨ev1, hst, -, h⟩ := settleSweep_cases e (e.settle qc fails) a
    have hupdated : HistoryRules ev1.st := by
      rw [hst]
      exact ha.updateSweep (fun _ _ _ => rfl) fun x _ _ => SweepEntry.settle_history (ha.entries e he) qc fails
    rcases h with h | ⟨-, h⟩ <;> rw [h]
    · exact hupdated
    · exact hupdated.resolve _ _ _
  | resolve => exact ha.resolve _ _ _
  | @sealed k st cause =>
    rw [sealSlot_eq] at hparams ⊢
    have hsame : (a.st.sealedAs k cause st).ring = a.st.ring ∧ (a.st.sealedAs k cause st).ingest = a.st.ingest ∧
        (a.st.sealedAs k cause st).pilots = a.st.pilots ∧ (a.st.sealedAs k cause st).sweeps = a.st.sweeps := by
      unfold State.sealedAs
      dsimp only
      split <;> exact ⟨rfl, rfl, rfl, rfl⟩
    exact ha.of_eq hsame.1 hsame.2.1 hsame.2.2.1 hparams hsame.2.2.2
  | linger => exact ha.of_eq rfl rfl rfl hparams rfl
  | @grant e l hsweep =>
    obtain ⟨he, hready⟩ := chooseSweep_mem hsweep
    refine HistoryRules.of_eq (s := a.st.updateSweep e.number fun x => { x with stage := .correlating l })
      (ha.updateSweep (fun x _ hn => hn) fun x hx hn => ?_) rfl rfl rfl hparams rfl
    obtain rfl := ha.numbers.eq_of_number hx he hn
    refine (ha.entries x hx).of_same rfl rfl rfl rfl rfl (fun _ => ?_) fun hwaiting => ?_
    · simp [SweepEntry.isDroppable, hready, Stage.isMerging]
    · rw [hready] at hwaiting; simp at hwaiting

/-! ### One row -/

theorem newestRows_of_le {l : List RingRow} (h : l.length ≤ Config.ringRows) : newestRows l = l := by
  unfold newestRows
  rw [Nat.sub_eq_zero_of_le h, List.drop_zero]

theorem newestRows_of_full {r : RingRow} {l : List RingRow} (h : l.length = Config.ringRows) :
    newestRows (r :: l) = l := by
  unfold newestRows
  rw [List.length_cons, h, Nat.add_sub_cancel_left]
  rfl

/-- The newest rows behind one more row of a ring that holds a row. -/
theorem newestRows_snoc {r x : RingRow} {rest : List RingRow} (h : rest.length + 1 ≤ Config.ringRows) :
    rest.length + 1 < Config.ringRows ∧ newestRows (r :: rest ++ [x]) = r :: (rest ++ [x]) ∨
      rest.length + 1 = Config.ringRows ∧ newestRows (r :: rest ++ [x]) = rest ++ [x] := by
  have hlen : (r :: rest ++ [x]).length = rest.length + 1 + 1 := List.length_append
  have hsplit := Nat.lt_or_eq_of_le h
  exact hsplit.imp (fun hlt => ⟨hlt, newestRows_of_le (hlen.trans_le hlt)⟩) fun hfull =>
    ⟨hfull, newestRows_of_full ((List.length_append ..).trans hfull)⟩

/-- With T0 within a half-range of a base and a window below 2^15, the data-complete row meets a row of the ring exactly
by its distance. -/
theorem dataRow_eq_iff {t0 o : Ssn} {w len : Nat} (hd : (t0 - o).toNat ≤ 2147483647) (hw : w ≤ 24574)
    (hlen : len ≤ 65536) : t0 + BitVec.ofNat 32 w = o + BitVec.ofNat 32 len ↔ (t0 - o).toNat + w = len := by
  have ht0 : t0 = (t0 - o) + o := (BitVec.sub_add_cancel _ _).symm
  generalize t0 - o = d at *
  subst ht0
  have hsum : d + o + BitVec.ofNat 32 w = o + (d + BitVec.ofNat 32 w) := by
    rw [BitVec.add_comm d o, BitVec.add_assoc]
  rw [hsum, BitVec.add_right_inj]
  have hval : (d + BitVec.ofNat 32 w).toNat = d.toNat + w := by
    rw [BitVec.toNat_add, BitVec.toNat_ofNat, Nat.mod_eq_of_lt (a := w) (by omega), Nat.mod_eq_of_lt (by omega)]
  have hlenval : (BitVec.ofNat 32 len).toNat = len := by rw [BitVec.toNat_ofNat, Nat.mod_eq_of_lt (by omega)]
  rw [← BitVec.toNat_inj, hval, hlenval]

theorem SweepEntry.arrive_dataComplete (s : State) (n : Ssn) (e : SweepEntry) :
    (e.arrive s n).dataComplete = true ↔ e.dataComplete = true ∨ e.dataRow = n := by
  unfold SweepEntry.arrive
  split
  next h => simp [h.1]
  next h => cases hc : e.dataComplete <;> simp_all

theorem SweepEntry.arrive_droppable (s : State) (n : Ssn) (e : SweepEntry) :
    (e.arrive s n).isDroppable = e.isDroppable := by
  rcases SweepEntry.arrive_stage s n e with ⟨hstage, -⟩ | ⟨hbefore, hafter⟩
  · unfold SweepEntry.isDroppable; rw [hstage]
  · unfold SweepEntry.isDroppable
    rw [Stage.not_merging_of_lane hbefore, Stage.not_merging_of_lane hafter]

theorem SweepEntry.arrive_window (s : State) (n : Ssn) (e : SweepEntry) :
    (e.arrive s n).t0 = e.t0 ∧ (e.arrive s n).pilotLength = e.pilotLength ∧ (e.arrive s n).copy = e.copy ∧
      (e.arrive s n).dataRow = e.dataRow := by
  unfold SweepEntry.arrive
  split <;> exact ⟨rfl, rfl, rfl, rfl⟩

theorem SweepEntry.windowOk.bounds {e : SweepEntry} (h : e.windowOk) :
    1 ≤ e.pilotLength + e.copy.listen - 2 ∧ e.pilotLength + e.copy.listen - 2 ≤ 24574 := by
  obtain ⟨⟨hS, hS', hL, hL'⟩, -⟩ := h
  omega

/-- The first row of an empty ring, at or before T0 (R81). -/
theorem SweepEntry.inHistory_single {e : SweepEntry} (h : e.windowOk) {r : RingRow}
    (hafter : ssnAtOrBefore r.ssn e.t0 = true) (hcomplete : e.dataComplete = false) (s : State) :
    (e.arrive s r.ssn).inHistory [r] := by
  obtain ⟨ht0, hlength, hcopy, -⟩ := SweepEntry.arrive_window s r.ssn e
  obtain ⟨hlo, hhi⟩ := h.bounds
  have hdist := (ssnAtOrBefore_iff _ _).1 hafter
  have hmeets := dataRow_eq_iff (len := 0) hdist hhi (Nat.zero_le _)
  have hzero : r.ssn + BitVec.ofNat 32 0 = r.ssn := BitVec.add_zero _
  rw [hzero, ← h.2] at hmeets
  have hnot : ¬ (e.dataComplete = true ∨ e.dataRow = r.ssn) := by
    rw [hcomplete, hmeets]
    rintro (h | h)
    · simp at h
    · omega
  unfold SweepEntry.inHistory
  dsimp only
  rw [ht0, hlength, hcopy, SweepEntry.arrive_dataComplete]
  refine ⟨hafter, iff_of_false hnot ?_⟩
  rw [List.length_singleton]
  omega

/-- One row more at the newest end (R73). -/
theorem SweepEntry.inHistory_snoc {e : SweepEntry} (h : e.windowOk) {r x : RingRow} {rest : List RingRow}
    (hold : e.inHistory (r :: rest)) (hx : x.ssn = r.ssn + BitVec.ofNat 32 (rest.length + 1))
    (hlen : rest.length + 1 ≤ 65536) (s : State) : (e.arrive s x.ssn).inHistory (r :: (rest ++ [x])) := by
  obtain ⟨ht0, hlength, hcopy, -⟩ := SweepEntry.arrive_window s x.ssn e
  obtain ⟨-, hhi⟩ := h.bounds
  unfold SweepEntry.inHistory at hold ⊢
  dsimp only at hold ⊢
  have hdist := (ssnAtOrBefore_iff _ _).1 hold.1
  have hmeets := dataRow_eq_iff (len := rest.length + 1) hdist hhi hlen
  rw [← h.2, ← hx] at hmeets
  rw [ht0, hlength, hcopy, SweepEntry.arrive_dataComplete, hold.2, hmeets, List.length_cons, List.length_cons,
    List.length_append, List.length_singleton]
  exact ⟨hold.1, by omega⟩

/-- The oldest row departs, and T0 is not at or before it (R80). -/
theorem SweepEntry.inHistory_tail {e : SweepEntry} {r a : RingRow} {l : List RingRow} (h : e.inHistory (r :: a :: l))
    (ha : a.ssn = r.ssn + 1) (hnot : ssnAtOrBefore e.t0 r.ssn = false) : e.inHistory (a :: l) := by
  unfold SweepEntry.inHistory at h ⊢
  dsimp only at h ⊢
  have hdist := (ssnAtOrBefore_iff _ _).1 h.1
  have hne : ¬ (r.ssn - e.t0).toNat ≤ 2147483647 := fun h => by
    rw [(ssnAtOrBefore_iff _ _).2 h] at hnot; simp at hnot
  have hnext : (e.t0 - (r.ssn + 1)).toNat + 1 = (e.t0 - r.ssn).toNat := by bv_omega
  rw [h.2, ha, ssnAtOrBefore_iff, List.length_cons (as := a :: l)]
  exact ⟨by omega, by omega⟩

theorem SweepEntry.arrive_t0 (s : State) (n : Ssn) (e : SweepEntry) : (e.arrive s n).t0 = e.t0 :=
  (SweepEntry.arrive_window s n e).1

/-- An entry that a row leaves in the table keeps its history with the ring behind the row. -/
theorem SweepEntry.inHistory_row {ring : List RingRow} {ingest : Ingest} (hring : RingRules ring ingest)
    {o : StreamOrigin} (ho : ingest.origin = some o) {words : List RingWord} {e : SweepEntry} (hwindow : e.windowOk)
    (hdrop : e.isDroppable = true) (h : e.inHistory ring) (hstays : rowDrops ring o.expected e = false) (s : State)
    {newest : List RingRow} (hnewest : newest = newestRows (ring ++ [{ ssn := o.expected, words := words }])) :
    (e.arrive s o.expected).inHistory newest := by
  have hlength := hring.length
  have hrun := hring.run o ho
  cases ring with
  | nil =>
    have hafter : ssnAtOrBefore o.expected e.t0 = true := by simpa [rowDrops, h.1] using hstays
    rw [newestRows_of_le (by simp [Config.ringRows]), List.nil_append] at hnewest
    subst hnewest
    exact SweepEntry.inHistory_single (r := { ssn := o.expected, words := words }) hwindow hafter h.2 s
  | cons r rest =>
    have hfirst : r.ssn = o.expected - BitVec.ofNat 32 (rest.length + 1) := by
      simpa using consecutive_iff.1 hrun 0 r rfl
    have hexpected : o.expected = r.ssn + BitVec.ofNat 32 (rest.length + 1) := by
      rw [hfirst, BitVec.sub_add_cancel]
    have hsnoc := SweepEntry.inHistory_snoc (x := { ssn := o.expected, words := words }) hwindow h hexpected hlength s
    rw [List.length_cons] at hlength
    have hsplit := newestRows_snoc (r := r) (x := { ssn := o.expected, words := words }) hlength
    rw [← hnewest] at hsplit
    clear hnewest
    rcases hsplit with ⟨-, rfl⟩ | ⟨hfull, rfl⟩
    · exact hsnoc
    · have hnot : ssnAtOrBefore e.t0 r.ssn = false := by
        unfold rowDrops at hstays
        dsimp only at hstays
        rw [List.length_cons, decide_eq_true hfull.ge, hdrop] at hstays
        exact hstays
      cases rest with
      | nil => exact absurd hfull (by decide)
      | cons a tail =>
        have hsecond : a.ssn = r.ssn + 1 := by rw [consecutive_iff.1 hrun 1 a rfl, hfirst]; rfl
        exact SweepEntry.inHistory_tail hsnoc hsecond (by rw [SweepEntry.arrive_t0]; exact hnot)

end Sys2Proof.Machine

/-! PROOFS. Every step keeps the sweeps' history (R63, R69, R73, R80, R81). -/

namespace Sys2Proof.Machine

/-! ### Rows and restarts -/

/-- Resolutions leave the pilot slots' phases. -/
theorem resolveAll_pilot_phase (p : SweepEntry → Bool) (out : SweepOutcome) (ev : Event) (i : Fin Config.pilots) :
    ((resolveAll p out ev).st.pilots[i]).phase = (ev.st.pilots[i]).phase := by
  unfold resolveAll
  generalize ev.st.sweeps.filter p = l
  induction l generalizing ev with
  | nil => rfl
  | cons e l ih => exact (ih _).trans (resolve_pilot_phase out none e ev i)

theorem dropAll_pilot_phase (p : SweepEntry → Bool) (out : SweepOutcome) (ev : Event) (i : Fin Config.pilots) :
    ((dropAll p out ev).st.pilots[i]).phase = (ev.st.pilots[i]).phase := by
  unfold dropAll
  rw [Event.addCauseIf_st]
  exact resolveAll_pilot_phase p out ev i

theorem departOldest_pilot_phase (ev : Event) (i : Fin Config.pilots) :
    ((departOldest ev).st.pilots[i]).phase = (ev.st.pilots[i]).phase := by
  unfold departOldest departureReport
  split
  · split
    · rfl
    · exact dropAll_pilot_phase _ _ _ i
  · rfl

theorem arrivalReport_pilot_phase (n : Ssn) (wasEmpty : Bool) (ev : Event) (i : Fin Config.pilots) :
    ((arrivalReport n wasEmpty ev).st.pilots[i]).phase = (ev.st.pilots[i]).phase := by
  unfold arrivalReport
  dsimp only
  rw [resolveAll_pilot_phase]
  cases wasEmpty with
  | false => rfl
  | true => exact dropAll_pilot_phase _ _ _ i

theorem appendRow_pilot_phase (gap : Bool) (ev : Event) (words : List RingWord) (i : Fin Config.pilots) :
    ((appendRow gap ev words).st.pilots[i]).phase = (ev.st.pilots[i]).phase := by
  unfold appendRow
  dsimp only
  rw [handRow_st]
  dsimp only
  rw [arrivalReport_pilot_phase]
  exact departOldest_pilot_phase ev i

theorem departOldest_fleets (ev : Event) : (departOldest ev).st.fleets = ev.st.fleets := by
  unfold departOldest
  split
  · split
    · rfl
    next r rest _ =>
      exact (dropAll_spec (fun e => e.isDroppable && ssnAtOrBefore e.t0 r.ssn) .droppedOverrun
        (ev.change fun s => { s with ring := rest })).1.fleets
  · rfl

theorem appendRow_fleets (gap : Bool) (ev : Event) (words : List RingWord) :
    (appendRow gap ev words).st.fleets = ev.st.fleets := by
  unfold appendRow
  dsimp only
  rw [handRow_st]
  exact (arrivalReport_aside (nextSsn ev.st) ev.st.ring.isEmpty
    ((departOldest ev).change (storeRow (nextSsn ev.st) words))).fleets.trans (departOldest_fleets ev)

theorem HistoryRules.appendRow {ev : Event} (h : HistoryRules ev.st) (gap : Bool) {words : List RingWord}
    (horigin : ev.st.ingest.origin ≠ none) (hlength : words.length = ev.st.ingest.channels) (hwords : ∀ w ∈ words, w.ok) :
    HistoryRules (appendRow gap ev words).st := by
  obtain ⟨o, ho⟩ := Option.ne_none_iff_exists'.1 horigin
  have hnext : nextSsn ev.st = o.expected := by unfold nextSsn; rw [ho]
  obtain ⟨hring, -, -⟩ := appendRow_spec gap ev words h.ring.length
  have hsweeps := appendRow_sweeps gap words h.numbers
  rw [hnext] at hring hsweeps
  refine ⟨h.ring.appendRow gap horigin hlength hwords, ?_, fun p => ?_, ?_, fun x hx => ?_⟩
  · unfold DistinctNumbers
    rw [hsweeps]
    refine List.Nodup.sublist (List.filter_sublist.map _) ?_
    rw [List.map_map, List.map_congr_left (f := SweepEntry.number ∘ SweepEntry.arrive ev.st o.expected)
      (g := SweepEntry.number) fun x _ => SweepEntry.arrive_number ev.st _ x]
    exact h.numbers.sublist (List.filter_sublist.map _)
  · rw [appendRow_pilot_phase]; exact h.pilots p
  · rw [appendRow_fleets]; exact h.fleets
  · rw [hsweeps] at hx
    obtain ⟨e, he, rfl⟩ := List.mem_map.1 (List.mem_filter.1 hx).1
    obtain ⟨he, hstays⟩ := List.mem_filter.1 he
    obtain ⟨hwindow, hhistory⟩ := h.entries e he
    obtain ⟨ht0, hlen, hcopy, hrow⟩ := SweepEntry.arrive_window ev.st o.expected e
    generalize (Machine.appendRow gap ev words).st.ring = newest at hring ⊢
    refine ⟨?_, fun hdrop => ?_⟩
    · unfold SweepEntry.windowOk
      rw [hlen, hcopy, hrow, ht0]
      exact hwindow
    · rw [SweepEntry.arrive_droppable] at hdrop
      rw [Bool.not_eq_true'] at hstays
      exact SweepEntry.inHistory_row h.ring ho hwindow hdrop (hhistory hdrop) hstays ev.st hring

theorem HistoryRules.restartStream {ev : Event} (h : HistoryRules ev.st) (o : Ssn) :
    HistoryRules (restartStream o ev).st := by
  have hring := h.ring.restartStream (ev := ev) o
  have hspec := dropAll_spec SweepEntry.isDroppable .droppedRestart (ev.change fun s =>
    { s with ring := [], ingest := { s.ingest with origin := some { origin := o, expected := o } } })
  have hphase := dropAll_pilot_phase SweepEntry.isDroppable .droppedRestart (ev.change fun s =>
    { s with ring := [], ingest := { s.ingest with origin := some { origin := o, expected := o } } })
  have hsweeps : (Machine.restartStream o ev).st.sweeps = ev.st.sweeps.filter fun e => !e.isDroppable :=
    hspec.2.2.1 h.numbers
  refine .of_undroppable hring (h.numbers.of_filter hsweeps) (fun p => ?_) (fun fl => ?_) fun e he => ?_
  · have hp : ((Machine.restartStream o ev).st.pilots[p]).phase = (ev.st.pilots[p]).phase := hphase p
    rw [hp]
    exact h.pilots p
  · have hfl : ((Machine.restartStream o ev).st.fleets[fl]).params = (ev.st.fleets[fl]).params := by
      unfold Machine.restartStream restartReport
      rw [Event.change_st]
      simp only [Event.change_st, clearSlip, Fin.getElem_fin, mapVec_getElem, hspec.1.fleets]
    rw [hfl]
    exact h.fleets fl
  · rw [hsweeps, List.mem_filter] at he
    exact ⟨(h.entries e he.1).window, by simpa using he.2⟩

theorem RowChange.keeps_historyRules {a b : Event} (h : RowChange a b) (ha : HistoryRules a.st) : HistoryRules b.st := by
  have hring := h.keeps_ringRules ha.ring
  cases h with
  | change h => exact h.keeps_historyRules ha
  | count => exact ⟨hring, ha.numbers, ha.pilots, ha.fleets, ha.entries⟩
  | origin => exact ⟨hring, ha.numbers, ha.pilots, ha.fleets, ha.entries⟩
  | row gap horigin hlength hwords => exact ha.appendRow gap horigin hlength hwords
  | restart o => exact ha.restartStream o

/-! ### Commands of their own -/

/-- The data-complete row of a T0 in bounds is in the ring exactly where its distance says so (R66, R69). -/
theorem inRing_iff {s : State} (h : RingRules s.ring s.ingest) {o t0 : Ssn} (ho : s.oldest = some o)
    (hbounds : t0InBounds s t0 = true) {w : Nat} (hw : w ≤ 24574) :
    inRing s (t0 + BitVec.ofNat 32 w) = true ↔ (t0 - o).toNat + w < s.ring.length := by
  obtain ⟨hpos, hnewest⟩ := h.oldest_newest ho
  have hdist := (t0InBounds_of_oldest h ho t0).1 hbounds
  have hmax : s.ring.length ≤ 65536 := h.length
  unfold inRing
  rw [hnewest]
  dsimp only
  rw [ssnAtOrBefore_iff]
  have hw' : (BitVec.ofNat 32 w).toNat = w := by rw [BitVec.toNat_ofNat]; omega
  have hlen : (BitVec.ofNat 32 s.ring.length).toNat = s.ring.length := by rw [BitVec.toNat_ofNat]; omega
  generalize BitVec.ofNat 32 w = wide at hw'
  generalize BitVec.ofNat 32 s.ring.length = rows at hlen
  bv_omega

theorem newEntry_history {s : State} (h : HistoryRules s) (fl : Fin Config.fleets) (vp : Word32)
    (k : Fin Config.stackSlots) {p : Fin Config.pilots} {t0 : Ssn} {n energy : Nat} {i : Fin 4}
    {samples : List (BitVec 16)} (hready : (s.pilots[p]).phase = .ready n i samples energy)
    (hbounds : t0InBounds s t0 = true) : EntryHistory s.ring (newEntry s fl vp k p t0 n energy) := by
  obtain ⟨hS, hS'⟩ := h.pilots p n (by rw [hready]; rfl)
  obtain ⟨hL, hL'⟩ := h.fleets fl
  have hwindow : (newEntry s fl vp k p t0 n energy).windowOk := ⟨⟨hS, hS', hL, hL'⟩, rfl⟩
  refine ⟨hwindow, fun _ => ?_⟩
  unfold SweepEntry.inHistory
  have hcomplete : (newEntry s fl vp k p t0 n energy).dataComplete =
      inRing s (t0 + BitVec.ofNat 32 (n + (s.fleets[fl]).params.listen - 2)) := rfl
  rw [hcomplete]
  cases hring : s.ring with
  | nil =>
    refine ⟨rfl, ?_⟩
    unfold inRing State.newest
    rw [hring]
    rfl
  | cons r rest =>
    have ho : s.oldest = some r.ssn := by unfold State.oldest; rw [hring]; rfl
    have hdist := (t0InBounds_of_oldest h.ring ho t0).1 hbounds
    have hmax : s.ring.length ≤ 65536 := h.ring.length
    dsimp only
    have hin := inRing_iff h.ring ho hbounds hwindow.bounds.2
    rw [hring] at hin
    exact ⟨(ssnAtOrBefore_iff _ _).2 (show (t0 - r.ssn).toNat ≤ 2147483647 by omega), hin⟩

/-- A new sweep joins the table. -/
theorem HistoryRules.added {s t : State} (h : HistoryRules s) {e : SweepEntry} (he : EntryHistory s.ring e)
    (hfresh : ∀ x ∈ s.sweeps, x.number ≠ e.number) (hring : t.ring = s.ring) (hingest : t.ingest = s.ingest)
    (hpilots : ∀ p : Fin Config.pilots, (t.pilots[p]).phase = (s.pilots[p]).phase)
    (hfleets : ∀ fl : Fin Config.fleets, (t.fleets[fl]).params = (s.fleets[fl]).params)
    (hsweeps : t.sweeps = s.sweeps ++ [e]) : HistoryRules t := by
  refine ⟨by rw [hring, hingest]; exact h.ring, ?_, fun p => by rw [hpilots]; exact h.pilots p,
    fun fl => by rw [hfleets]; exact h.fleets fl, fun x hx => ?_⟩
  · unfold DistinctNumbers
    rw [hsweeps, List.map_append]
    refine List.nodup_append.2 ⟨h.numbers, by simp, fun n hn m hm => ?_⟩
    obtain ⟨x, hx, rfl⟩ := List.mem_map.1 hn
    obtain rfl : m = e.number := by simpa using hm
    exact hfresh x hx
  · rw [hring]
    rw [hsweeps] at hx
    rcases List.mem_append.1 hx with hx | hx
    · exact h.entries x hx
    · rw [List.mem_singleton.1 hx]; exact he

theorem addSweep_pilot_phase (entry : SweepEntry) (s : State) (p : Fin Config.pilots) :
    ((addSweep entry s).pilots[p]).phase = (s.pilots[p]).phase := by
  rw [addSweep_pilots]
  split
  next hp => subst hp; rfl
  · rfl

/-- The commands whose own change leaves pilots' phases and fleets' parameters and adds no sweep. -/
theorem Single.keeps_historyRules {c : Instr} {s : State} {ev : Event} (h : Single c s ev) (hfresh : FreshNumber s)
    (hs : HistoryRules s) : HistoryRules ev.st := by
  have hring := h.keeps_ringRules hs.ring
  have hsettings := fun hc => h.keeps_settings hc
  cases h with
  | reset => exact (historyInv_iff _).1 historyInv_reset
  | @join _ fl vp p t0 n _ _ energy k st hready hbounds =>
    have hparams : ∀ f : Fin Config.fleets, _ = (s.fleets[f]).params := fun f =>
      congrArg Prod.fst (congrFun ((hsettings nofun).fleets nofun) f)
    exact hs.added (newEntry_history hs fl vp k hready hbounds) hfresh rfl rfl (addSweep_pilot_phase _ _) hparams (by simp)
  | @fresh _ fl vp p t0 n _ _ energy k hready hbounds =>
    have hparams : ∀ f : Fin Config.fleets, _ = (s.fleets[f]).params := fun f =>
      congrArg Prod.fst (congrFun ((hsettings nofun).fleets nofun) f)
    obtain ⟨hmring, hmingest, -⟩ := sealMoved_ring fl vp (Event.start s)
    have hpilots := sealMoved_pilots fl vp (Event.start s)
    have hsweeps := sealMoved_sweeps fl vp (Event.start s)
    generalize sealMoved fl vp (Event.start s) = ev0 at hparams hmring hmingest hpilots hsweeps
    refine hs.added (newEntry_history hs fl vp k hready hbounds) hfresh hmring hmingest (fun p => ?_) hparams
      (by simp [hsweeps])
    refine (addSweep_pilot_phase _ _ p).trans ?_
    show (ev0.st.pilots[p]).phase = _
    rw [hpilots]
    rfl
  | @correlate _ l j =>
    have hupdated : HistoryRules (s.updateSweep j.sweep fun x => { x with stage := .merging l }) :=
      hs.updateSweep (fun _ _ hn => hn) fun x hx _ => ⟨(hs.entries x hx).window, fun hdrop => by
        simp [SweepEntry.isDroppable, Stage.isMerging] at hdrop⟩
    unfold askPort
    dsimp only
    split <;> exact hupdated.of_eq rfl rfl rfl (fun _ => rfl) rfl
  | @merge _ l j sc =>
    have happlied : HistoryRules (applyMerge j sc s) := by
      unfold applyMerge
      split
      · exact hs
      · exact hs.of_eq rfl rfl rfl (fun _ => rfl) rfl
    have hresolved : HistoryRules (resolveMerged j sc (Event.start (applyMerge j sc s))).st := by
      rcases resolveMerged_cases j sc (Event.start (applyMerge j sc s)) with hm | ⟨e, -, hm⟩ <;> rw [hm]
      · exact happlied
      · exact HistoryRules.resolve (ev := Event.start (applyMerge j sc s)) happlied _ _ _
    generalize resolveMerged j sc (Event.start (applyMerge j sc s)) = ev at hresolved
    obtain ⟨hpring, hpingest, -⟩ := passPort_ring j.slot (ev.st.setLane l .idle)
    obtain ⟨hsweeps, hpilots, -⟩ := passPort_claims j.slot (ev.st.setLane l .idle)
    obtain ⟨hfleets, -⟩ := passPort_stack j.slot (ev.st.setLane l .idle)
    exact hresolved.of_eq hpring hpingest hpilots (fun fl => by rw [Event.change_st, hfleets]; rfl) hsweeps
  | setup i hchannels hquiet =>
    obtain ⟨hsweeps, -⟩ := (isQuiet_iff s).1 hquiet
    refine ⟨hring, hs.numbers, hs.pilots, fun fl => ?_, fun e he => ?_⟩
    · simpa [setupStream, clearSlip] using hs.fleets fl
    · have he : e ∈ s.sweeps := he
      rw [hsweeps] at he
      simp at he
  | channelSet => exact hs.of_eq rfl rfl rfl (fun _ => rfl) rfl
  | @fleetSet _ fl d q hlo hhi =>
    refine ⟨hring, hs.numbers, hs.pilots, fun f => ?_, hs.entries⟩
    rw [Event.start_st, State.setFleet_fleets, vector_set_getElem]
    split
    · exact ⟨hlo, hhi⟩
    · exact hs.fleets f
  | mask => exact hs.of_eq rfl rfl rfl (fun _ => rfl) rfl
  | release => exact hs.of_eq rfl rfl rfl (fun _ => rfl) rfl
  | read => unfold moveToHarvesting; split <;> exact hs.of_eq rfl rfl rfl (fun _ => rfl) rfl
  | clear =>
    refine ⟨hring, List.nodup_nil, fun p => ?_, fun fl => ?_, fun e he => ?_⟩
    · have hphase := resolveAll_pilot_phase (fun _ => true) .droppedClear (Event.start s) p
      have hget : ((clearEvent s).st.pilots[p]) =
          clearPilot (resolveAll (fun _ => true) .droppedClear (Event.start s)).st.pilots[p] :=
        mapVec_getElem clearPilot _ _ p.isLt
      have hin := hs.pilots p
      change _ = (s.pilots[p]).phase at hphase
      rw [← hphase] at hin
      rw [hget]
      generalize (resolveAll (fun _ => true) .droppedClear (Event.start s)).st.pilots[p] = slot at hin
      unfold clearPilot
      split
      · simp [PilotPhase.InRange, PilotPhase.length?]
      · simp [PilotPhase.InRange, PilotPhase.length?]
      · exact hin
    · have hparams := congrArg Prod.fst (congrFun ((hsettings nofun).fleets nofun) fl)
      change ((clearEvent s).st.fleets[fl]).params = (s.fleets[fl]).params at hparams
      rw [hparams]
      exact hs.fleets fl
    · simp [clearEvent, clearBlocks] at he

/-- Settles O10: rows, restarts and announcements keep the history, entry by entry. -/
theorem noSweepOutlivesItsHistory : Obligations.NoSweepOutlivesItsHistory := by
  intro s t hs hfresh hstep
  obtain ⟨c, q, hhappens⟩ := step_happens hstep
  rw [historyInv_iff] at *
  refine happens_keeps_rows (s := { s with pending := q }) (P := fun ev => HistoryRules ev.st)
    (fun _ _ h => h.keeps_historyRules) (fun a b h ha => ?_) (fun _ _ h => h.keeps_historyRules)
    (fun _ u _ _ hu h => h.keeps_historyRules (FreshNumber.of_links (s := { s with pending := q }) hfresh hu))
    (hs.of_eq rfl rfl rfl (fun _ => rfl) rfl) hhappens
  cases h with
  | change h => exact h.keeps_historyRules ha
  | clock => exact ha.of_eq rfl rfl rfl (fun _ => rfl) rfl

end Sys2Proof.Machine

/-! PROOFS. Correlation (chapter 6): the sums Q[k] as convolutions and their bound, rounding and saturation, the causes
of a trace, and the records and counts of a scratch. -/

namespace Sys2Proof.Machine

/-! ### Sums of products (R107) -/

/-- The sum of products stops with the shorter list; beyond a list's end the factor is 0. -/
theorem dot_eq_sum (xs ps : List Int) : dot xs ps = ∑ n ∈ Finset.range ps.length, xs.getD n 0 * ps.getD n 0 := by
  induction ps generalizing xs with
  | nil => cases xs <;> rfl
  | cons p ps ih => cases xs with
    | nil => simp [dot]
    | cons x xs =>
      rw [dot, ih, List.length_cons, Finset.sum_range_succ', add_comm]
      rfl

theorem correlationSums_eq (pilot : List Int) (n : Nat) (xs : List Int) :
    correlationSums pilot n xs = (List.range n).map fun k => dot (xs.drop k) pilot := by
  induction n generalizing xs with
  | zero => rfl
  | succ n ih =>
    rw [correlationSums, ih, List.range_succ_eq_map]
    simp [Function.comp_def]

/-- Q[k] of a channel whose words are `words` (R107). -/
def correlationSum (pilot : List Int) (words : List RingWord) (k : Nat) : Int :=
  ∑ n ∈ Finset.range pilot.length,
    (words.getD (k + n) { x := 0, clipped := false, dropout := false }).x * pilot.getD n 0

theorem correlationSums_words (pilot : List Int) (n : Nat) (words : List RingWord) :
    correlationSums pilot n (words.map RingWord.x) = (List.range n).map (correlationSum pilot words) := by
  rw [correlationSums_eq]
  refine List.map_congr_left fun k _ => ?_
  rw [dot_eq_sum]
  refine Finset.sum_congr rfl fun n _ => ?_
  congr 1
  simp only [List.getD_eq_getElem?_getD, List.getElem?_drop, List.getElem?_map]
  cases words[k + n]? <;> rfl

/-- 2^14 products of 2^29 by 2^15. -/
theorem correlationSum_natAbs_le {pilot : List Int} {words : List RingWord} (hlength : pilot.length ≤ 16384)
    (hwords : ∀ w ∈ words, w.x.natAbs ≤ 536870912) (hpilot : ∀ p ∈ pilot, p.natAbs ≤ 32768) (k : Nat) :
    (correlationSum pilot words k).natAbs ≤ 2 ^ 58 := by
  have hx (i : Nat) : (words.getD i { x := 0, clipped := false, dropout := false }).x.natAbs ≤ 536870912 := by
    rw [List.getD_eq_getElem?_getD]
    cases h : words[i]? with
    | none => simp
    | some w => exact hwords w (List.mem_of_getElem? h)
  have hp (i : Nat) : (pilot.getD i 0).natAbs ≤ 32768 := by
    rw [List.getD_eq_getElem?_getD]
    cases h : pilot[i]? with
    | none => simp
    | some p => exact hpilot p (List.mem_of_getElem? h)
  have hterm (i : Nat) : ((words.getD (k + i) { x := 0, clipped := false, dropout := false }).x *
      pilot.getD i 0).natAbs ≤ 17592186044416 := by
    rw [Int.natAbs_mul]
    exact (Nat.mul_le_mul (hx _) (hp i)).trans (by norm_num)
  calc (correlationSum pilot words k).natAbs
      ≤ ∑ _ ∈ Finset.range pilot.length, 17592186044416 :=
        (Int.natAbs_sum_le _ _).trans (Finset.sum_le_sum fun i _ => hterm i)
    _ = pilot.length * 17592186044416 := by rw [Finset.sum_const, Finset.card_range, smul_eq_mul]
    _ ≤ 16384 * 17592186044416 := Nat.mul_le_mul_right _ hlength
    _ = 2 ^ 58 := by norm_num

theorem correlateChannel_of_no_cause {j : Job} {v : ChannelView} {words : List RingWord}
    (h : traceCause j v words = none) (pilot : List Int) : correlateChannel j pilot v words =
      ({ cause := none, weight := traceWeight j.weight (windowPower words (j.pilotLength + j.listen - 1)),
         trace := (List.range j.listen).map fun k => correlatedValue j.shift (correlationSum pilot words k) },
       saturationCount j.shift ((List.range j.listen).map (correlationSum pilot words))) := by
  rw [correlateChannel, h, correlationSums_words]
  simp only [List.map_map, Function.comp_def]

theorem correlateChannel_of_cause {j : Job} {v : ChannelView} {words : List RingWord} {c : TraceCause}
    (h : traceCause j v words = some c) (pilot : List Int) :
    correlateChannel j pilot v words = ({ cause := some c, weight := 0, trace := [] }, 0) := by
  rw [correlateChannel, h]

/-- Settles O20: the trace lag by lag, the channel with a cause, and the bound on Q[k]. -/
theorem correlationSumsAreConvolutions : Obligations.CorrelationSumsAreConvolutions := by
  intro j pilot v words _ x sum
  refine ⟨fun hnone => ?_, fun hcause => ?_, fun hlength hwords hpilot k _ =>
    correlationSum_natAbs_le hlength hwords hpilot k⟩
  · rw [correlateChannel_of_no_cause hnone]
    exact ⟨rfl, rfl⟩
  · obtain ⟨c, hc⟩ := Option.ne_none_iff_exists'.1 hcause
    rw [correlateChannel_of_cause hc]
    exact ⟨rfl, rfl⟩

/-! ### Rounding and saturation (R108) -/

theorem saturationCount_cons (shift : Nat) (q : Int) (qs : List Int) :
    saturationCount shift (q :: qs) = saturationCount shift [q] + saturationCount shift qs := by
  simp only [saturationCount, List.filter_cons, List.filter_nil]
  split <;> simp [Nat.add_comm]

theorem saturationCount_singleton (shift : Nat) (q : Int) :
    saturationCount shift [q] =
      if -2147483648 ≤ scaledSum shift q ∧ scaledSum shift q ≤ 2147483647 then 0 else 1 := by
  have h := saturate_ne_self_iff 32 (scaledSum shift q)
  norm_num at h
  rw [saturationCount, List.filter_singleton]
  by_cases hin : -2147483648 ≤ scaledSum shift q ∧ scaledSum shift q ≤ 2147483647
  · have : correlatedValue shift q = scaledSum shift q := not_not.1 fun hne => by have := h.1 hne; omega
    simp [this, hin]
  · have : correlatedValue shift q ≠ scaledSum shift q := h.2 (by omega)
    simp [this, hin]

/-- A rounded quotient has the sign of its dividend. -/
theorem scaledSum_eq (shift : Nat) (q : Int) :
    scaledSum shift q = if q < 0 then -((scaledSum shift q).natAbs : Int) else ((scaledSum shift q).natAbs : Int) := by
  have hpos : 1 ≤ 2 ^ shift := Nat.one_le_two_pow
  split
  · have := roundDiv_nonpos (a := q) (by omega) hpos
    unfold scaledSum
    omega
  · have := roundDiv_nonneg (a := q) (2 ^ shift) (by omega)
    unfold scaledSum
    omega

/-- Settles O21: the rounded magnitude, its sign, and what saturation changes. -/
theorem correlatedValuesRoundAndSaturate : Obligations.CorrelatedValuesRoundAndSaturate := by
  intro shift q
  have hbounds := roundDiv_bounds q (2 ^ shift) Nat.one_le_two_pow
  rw [Nat.mul_comm _ (2 ^ shift)] at hbounds
  refine ⟨(scaledSum shift q).natAbs, hbounds.1, hbounds.2, ?_, saturationCount_cons shift q⟩
  rw [← scaledSum_eq]
  refine ⟨?_, saturationCount_singleton shift q⟩
  rw [correlatedValue, saturate_eq]
  norm_num

/-! ### Output samples (R152, R153) -/

/-- A quotient rounded to the nearest does not leave a range of whole numbers that holds the exact one. -/
theorem roundDiv_range {a : Int} {w lo hi : Nat} (hw : 1 ≤ w) (hlo : -(lo : Int) * w ≤ a) (hhi : a ≤ (hi : Int) * w) :
    -(lo : Int) ≤ roundDiv a w ∧ roundDiv a w ≤ hi := by
  obtain ⟨hbound, _⟩ := roundDiv_bounds a w hw
  have hnear {m : Nat} (h : a.natAbs ≤ m * w) : (roundDiv a w).natAbs ≤ m := by
    by_contra hlt
    have : (m + 1) * w ≤ (roundDiv a w).natAbs * w := Nat.mul_le_mul_right _ (by omega)
    rw [Nat.add_mul] at this
    omega
  rcases le_total 0 a with ha | ha
  · have hsign := roundDiv_nonneg w ha
    have := hnear (m := hi) (by zify; rw [abs_of_nonneg ha]; exact hhi)
    omega
  · have hsign := roundDiv_nonpos ha hw
    have := hnear (m := lo) (by zify; rw [abs_of_nonpos ha]; linarith)
    omega

/-- Settles O26: MEAN divides by the weight sum, SUM by 2^OS. -/
theorem outputSamplesAreMeansOrSums : Obligations.OutputSamplesAreMeansOrSums := by
  intro shift w a hw
  have hmean : normalisedSample .mean shift w a = roundDiv a w := if_neg (by omega)
  refine ⟨?_, ?_, roundDiv_one a⟩
  · rw [hmean]
    obtain ⟨hupper, hlower⟩ := roundDiv_bounds a w hw
    exact ⟨hupper, hlower, roundDiv_nonneg w, fun ha => roundDiv_nonpos ha hw, fun hlo hhi =>
      roundDiv_range (lo := 2147483648) (hi := 2147483647) hw hlo hhi⟩
  · obtain ⟨hupper, hlower⟩ := roundDiv_bounds a (2 ^ shift) Nat.one_le_two_pow
    exact ⟨hupper, hlower, roundDiv_nonneg _, fun ha => roundDiv_nonpos ha Nat.one_le_two_pow⟩

/-! ### Causes (R104) -/

theorem traceCause_inactive_iff {j : Job} {v : ChannelView} {words : List RingWord} :
    traceCause j v words = some .inactive ↔ v.active = false := by
  unfold traceCause
  repeat' split
  all_goals simp_all

theorem traceCause_dead_iff {j : Job} {v : ChannelView} {words : List RingWord} :
    traceCause j v words = some .dead ↔ v.active = true ∧ v.monitor = .dead := by
  unfold traceCause
  repeat' split
  all_goals simp_all

theorem traceCause_clip_iff {j : Job} {v : ChannelView} {words : List RingWord} :
    traceCause j v words = some .clip ↔ v.active = true ∧ v.monitor = .normal ∧
      (1 ≤ j.clipLimit ∧ j.clipLimit ≤ clippedCount words) := by
  unfold traceCause
  cases v.monitor <;> repeat' split
  all_goals simp_all

theorem traceCause_burst_iff {j : Job} {v : ChannelView} {words : List RingWord} :
    traceCause j v words = some .burst ↔ v.active = true ∧ v.monitor = .normal ∧
      ¬ (1 ≤ j.clipLimit ∧ j.clipLimit ≤ clippedCount words) ∧
      (j.weight = .diversity ∧ 0 < j.burst ∧ j.burst < windowPower words (j.pilotLength + j.listen - 1)) := by
  unfold traceCause
  cases v.monitor <;> repeat' split
  all_goals simp_all

/-! ### The window's rows (R103) -/

theorem dropWhile_eq_drop {α : Type} {p : α → Bool} {l : List α} {a : Nat} (h : a < l.length)
    (hbefore : ∀ i (hi : i < l.length), i < a → p l[i] = true) (hat : p l[a] = false) : l.dropWhile p = l.drop a := by
  induction l generalizing a with
  | nil => simp at h
  | cons x l ih => cases a with
    | zero => rw [List.dropWhile_cons_of_neg (by simpa using hat), List.drop_zero]
    | succ a =>
      rw [List.dropWhile_cons_of_pos (show p x = true from hbefore 0 (by simp) (by omega)), List.drop_succ_cons]
      exact ih (by simpa using h) (fun i hi hlt => hbefore (i + 1) (by simpa using hi) (by omega)) (by simpa using hat)

/-- The rows of a short run have different SSNs. -/
theorem consecutive_inj {first : Ssn} {l : List RingRow} (h : consecutive first l) (hlength : l.length ≤ 65536)
    {a b : Nat} (ha : a < l.length) (hb : b < l.length) (heq : l[a].ssn = l[b].ssn) : a = b := by
  rw [consecutive_iff] at h
  rw [h a _ (List.getElem?_eq_getElem ha), h b _ (List.getElem?_eq_getElem hb)] at heq
  have : (BitVec.ofNat 32 a).toNat = (BitVec.ofNat 32 b).toNat := congrArg BitVec.toNat (by bv_omega)
  simp only [BitVec.toNat_ofNat] at this
  omega

/-- A run that holds the rows of a window holds them one behind the other. -/
theorem window_places {first : Ssn} {l : List RingRow} (h : consecutive first l) (hlength : l.length ≤ 65536)
    {t0 : Ssn} {n : Nat} (hn : 1 ≤ n) (hrows : ∀ i, i < n → ∃ r ∈ l, r.ssn = t0 + BitVec.ofNat 32 i) :
    ∃ a, a + n ≤ l.length ∧ ∀ i (hi : a + i < l.length), l[a + i].ssn = t0 + BitVec.ofNat 32 i := by
  have hrun := consecutive_iff.1 h
  obtain ⟨r, hr, hfirst⟩ := hrows 0 (by omega)
  obtain ⟨a, ha, rfl⟩ := List.mem_iff_getElem.1 hr
  have ht0 : t0 = first + BitVec.ofNat 32 a := by
    rw [← hrun a _ (List.getElem?_eq_getElem ha), hfirst]
    simp
  have hssn (i : Nat) (hi : a + i < l.length) : l[a + i].ssn = t0 + BitVec.ofNat 32 i := by
    rw [hrun _ _ (List.getElem?_eq_getElem hi), ht0, BitVec.ofNat_add, BitVec.add_assoc]
  refine ⟨a, ?_, hssn⟩
  by_contra hlt
  obtain ⟨x, hx, hxssn⟩ := hrows (l.length - a) (by omega)
  obtain ⟨b, hb, rfl⟩ := List.mem_iff_getElem.1 hx
  rw [hrun b _ (List.getElem?_eq_getElem hb), ht0, BitVec.add_assoc, ← BitVec.ofNat_add,
    Nat.add_sub_cancel' ha.le] at hxssn
  have : (BitVec.ofNat 32 b).toNat = (BitVec.ofNat 32 l.length).toNat := congrArg BitVec.toNat (by bv_omega)
  simp only [BitVec.toNat_ofNat] at this
  omega

/-- The word the ring has for a channel at a row's own SSN is that row's. -/
theorem ringWord_of_place {s : State} {first : Ssn} (h : consecutive first s.ring) (hlength : s.ring.length ≤ 65536)
    {a : Nat} (ha : a < s.ring.length) (c : Nat) :
    ringWord s s.ring[a].ssn c = s.ring[a].words.getD c { x := 0, clipped := false, dropout := false } := by
  have hfind : (s.ring.find? fun r => decide (r.ssn = s.ring[a].ssn)) = some s.ring[a] := by
    rw [List.find?_eq_some_iff_getElem]
    refine ⟨by simp, a, ha, rfl, fun i hi => ?_⟩
    simp only [Bool.not_eq_eq_eq_not, Bool.not_true, decide_eq_false_iff_not]
    exact fun heq => absurd (consecutive_inj h hlength (by omega) ha heq) (by omega)
  rw [ringWord, hfind]

/-- The words of the window as the ring has them SSN by SSN. -/
theorem channelWords_windowRows {s : State} (hring : RingRules s.ring s.ingest) {t0 : Ssn} {n : Nat}
    (hrows : ∀ i, i < n → ∃ r ∈ s.ring, r.ssn = t0 + BitVec.ofNat 32 i) (c : Nat) :
    channelWords (windowRows s.ring t0 n) c =
      (List.range n).map fun i => ringWord s (t0 + BitVec.ofNat 32 i) c := by
  rcases Nat.eq_zero_or_pos n with rfl | hn
  · rfl
  obtain ⟨first, hrun⟩ : ∃ first, consecutive first s.ring := by
    cases horigin : s.ingest.origin with
    | none => exact ⟨0, by rw [hring.unset horigin]; exact trivial⟩
    | some o => exact ⟨_, hring.run o horigin⟩
  have hlength : s.ring.length ≤ 65536 := hring.length
  obtain ⟨a, hfits, hssn⟩ := window_places hrun hlength hn hrows
  have ha : a < s.ring.length := by omega
  have ht0 : s.ring[a].ssn = t0 := by simpa using hssn 0 (by omega)
  have hdrop : (s.ring.dropWhile fun r => decide (r.ssn ≠ t0)) = s.ring.drop a :=
    dropWhile_eq_drop ha
      (fun i hi hlt => decide_eq_true fun heq =>
        absurd (consecutive_inj hrun hlength hi ha (heq.trans ht0.symm)) (by omega))
      (by simpa using ht0)
  rw [windowRows, hdrop, channelWords]
  refine List.ext_getElem (by simp; omega) fun i hi _ => ?_
  have hi : a + i < s.ring.length := by simp at hi; omega
  simp only [List.getElem_map, List.getElem_take, List.getElem_drop, List.getElem_range]
  rw [← hssn i hi, ringWord_of_place hrun hlength hi]

/-! ### The scratch of a job (R103, R110) -/

theorem correlateChannels_eq (j : Job) (pilot : List Int) (rows : List RingRow) (c : Nat) (l : List ChannelView) :
    correlateChannels j pilot rows c l =
      l.mapIdx fun i v => correlateChannel j pilot v (channelWords rows (c + i)) := by
  induction l generalizing c with
  | nil => rfl
  | cons v l ih =>
    rw [correlateChannels, ih, List.mapIdx_cons]
    simp [Nat.add_comm, Nat.add_left_comm]

theorem map_mapIdx {α β γ : Type} (f : β → γ) (g : Nat → α → β) (l : List α) :
    (l.mapIdx g).map f = l.mapIdx fun i a => f (g i a) :=
  List.ext_getElem (by simp) (by simp)

theorem correlate_records (j : Job) (s : State) : (correlate j s).records =
    j.snapshot.mapIdx fun c v => (correlateChannel j (s.pilots[j.pilot].phase.samples.map BitVec.toInt) v
      (channelWords (windowRows s.ring j.t0 (j.pilotLength + j.listen - 1)) c)).1 := by
  simp [correlate, correlateChannels_eq, map_mapIdx]

theorem correlate_saturated (j : Job) (s : State) : (correlate j s).counts.saturated =
    (j.snapshot.mapIdx fun c v => (correlateChannel j (s.pilots[j.pilot].phase.samples.map BitVec.toInt) v
      (channelWords (windowRows s.ring j.t0 (j.pilotLength + j.listen - 1)) c)).2).sum := by
  simp [correlate, correlateChannels_eq, map_mapIdx]

theorem correlate_records_length (j : Job) (s : State) : (correlate j s).records.length = j.snapshot.length := by
  rw [correlate_records, List.length_mapIdx]

theorem correlate_inactive (j : Job) (s : State) : (correlate j s).counts.inactive =
    ((correlate j s).records.filter fun r => decide (r.cause = some .inactive)).length := by
  simp only [correlate, List.filter_map, List.length_map]
  rfl

theorem correlate_edited (j : Job) (s : State) : (correlate j s).counts.edited =
    ((correlate j s).records.filter TraceRecord.isEdited).length := by
  simp only [correlate, List.filter_map, List.length_map]
  rfl

/-- A record is edited, inactive or without a cause, and one of them only. -/
theorem edited_inactive_correlated (l : List TraceRecord) :
    (l.filter TraceRecord.isEdited).length + (l.filter fun r => decide (r.cause = some .inactive)).length +
      (l.filter fun r => decide (r.cause = none)).length = l.length := by
  induction l with
  | nil => rfl
  | cons r l ih =>
    rw [List.length_cons, ← ih]
    rcases hcause : r.cause with _ | _ | _ | _ | _ <;>
      simp only [List.filter_cons, TraceRecord.isEdited, hcause] <;> simp <;> omega

theorem correlateChannel_ok {j : Job} {v : ChannelView} {words : List RingWord} (pilot : List Int)
    (hwords : ∀ w ∈ words, w.x.natAbs ≤ 536870912) (hlength : words.length ≤ j.pilotLength + j.listen - 1) :
    (correlateChannel j pilot v words).1.ok := by
  cases hcause : traceCause j v words with
  | some c =>
    rw [correlateChannel_of_cause hcause]
    exact ⟨nofun, fun _ => rfl, nofun⟩
  | none =>
    rw [correlateChannel_of_no_cause hcause]
    refine ⟨fun _ => ?_, fun h => absurd rfl h, fun x hx => ?_⟩
    · cases j.weight with
      | plain => exact ⟨le_rfl, Nat.le_of_ble_eq_true rfl⟩
      | diversity =>
        exact ⟨one_le_traceWeight_diversity (windowPower_le hwords hlength), traceWeight_diversity_le _⟩
    · obtain ⟨k, _, rfl⟩ := List.mem_map.1 hx
      have h := saturate_range 32 (scaledSum j.shift (correlationSum pilot words k))
      norm_num at h
      exact h

/-- On a ring whose words are in range a scratch is as R110 has it. -/
theorem correlate_ok {s : State} (hring : RingRules s.ring s.ingest) (j : Job) : ∀ r ∈ (correlate j s).records, r.ok := by
  intro r hr
  rw [correlate_records, List.mem_mapIdx] at hr
  obtain ⟨c, hc, rfl⟩ := hr
  refine correlateChannel_ok _ (fun w hw => ?_) ?_
  · obtain ⟨row, hrow, rfl⟩ := List.mem_map.1 hw
    have hin : row ∈ s.ring := (List.dropWhile_sublist _).subset (List.mem_of_mem_take hrow)
    rw [List.getD_eq_getElem?_getD]
    cases hword : row.words[c]? with
    | none => simp
    | some w =>
      obtain ⟨hlo, hhi, _⟩ := (hring.words row hin).2 w (List.mem_of_getElem? hword)
      simp only [Option.getD_some]
      omega
  · rw [channelWords, List.length_map, windowRows]
    exact List.length_take_le _ _

/-- Settles O23: the first cause that holds, the records from the ring's rows, and the counts. -/
theorem traceCausesAndCounts : Obligations.TraceCausesAndCounts := by
  refine ⟨fun j v words => ⟨traceCause_inactive_iff, traceCause_dead_iff, traceCause_clip_iff,
    traceCause_burst_iff⟩, fun j s hring hrows => ?_, fun j s => ⟨correlate_records_length j s,
      fun hring => correlate_ok ((ringInv_iff s).1 hring) j, correlate_inactive j s, ?_⟩⟩
  · intro pilot channel
    have hwords := channelWords_windowRows ((ringInv_iff s).1 hring) hrows
    rw [correlate_records, correlate_saturated]
    simp only [hwords]
    exact ⟨rfl, rfl⟩
  · rw [correlate_edited, correlate_inactive, edited_inactive_correlated, correlate_records_length]

end Sys2Proof.Machine

/-! PROOFS. Merges (sections 6.5, 6.6): two merges in either order, what a merge adds to a stack's bounds, and the
bounds of every stack over every step. -/

namespace Sys2Proof.Machine

/-! ### Two merges in either order (R112, R114) -/

/-- Two elementwise passes commute where the element operation does. -/
theorem zipFirst_comm {α β : Type} {f : α → β → α} (hf : ∀ a b c, f (f a b) c = f (f a c) b) (l : List α) (m n : List β) :
    zipFirst f (zipFirst f l m) n = zipFirst f (zipFirst f l n) m := by
  refine List.ext_getElem? fun i => ?_
  simp only [zipFirst_getElem?]
  rcases l[i]? with _ | a <;> rcases m[i]? with _ | b <;> rcases n[i]? with _ | c <;> simp [hf]

/-- A trace is added to accumulators that another trace was added to. -/
theorem addTrace_comm (v w : Nat) (acc r q : List Int) :
    addTrace w (addTrace v acc r) q = addTrace v (addTrace w acc q) r := by
  refine List.ext_getElem? fun i => ?_
  unfold addTrace
  simp only [zipFirst_getElem?]
  rcases acc[i]? with _ | a <;> rcases r[i]? with _ | b <;> rcases q[i]? with _ | c <;> simp
  omega

theorem EditSet.add_comm (e : EditSet) (a b : TraceCause) : (e.add a).add b = (e.add b).add a := by
  cases a <;> cases b <;> rfl

theorem mergeChannel_of_none (c : ChannelStack) {r : TraceRecord} (h : r.cause = none) : mergeChannel c r =
    { c with acc := addTrace r.weight c.acc r.trace, weightSum := c.weightSum + r.weight,
             accepted := c.accepted + 1 } := by
  rw [mergeChannel, h]

theorem mergeChannel_of_inactive (c : ChannelStack) {r : TraceRecord} (h : r.cause = some .inactive) :
    mergeChannel c r = c := by
  rw [mergeChannel, h]

theorem mergeChannel_of_edit (c : ChannelStack) {r : TraceRecord} {cause : TraceCause} (h : r.cause = some cause)
    (hedit : cause ≠ .inactive) :
    mergeChannel c r = { c with edited := c.edited + 1, causes := c.causes.add cause } := by
  rw [mergeChannel, h]
  cases cause with
  | inactive => exact absurd rfl hedit
  | _ => rfl

/-- A record adds a trace, nothing, or an edit. -/
theorem mergeChannel_cases (r : TraceRecord) :
    (∀ c, mergeChannel c r = { c with acc := addTrace r.weight c.acc r.trace, weightSum := c.weightSum + r.weight,
                                      accepted := c.accepted + 1 }) ∨
      (∀ c, mergeChannel c r = c) ∨
      ∃ a, ∀ c, mergeChannel c r = { c with edited := c.edited + 1, causes := c.causes.add a } := by
  rcases h : r.cause with _ | a
  · exact .inl fun c => mergeChannel_of_none c h
  · by_cases hi : a = .inactive
    · exact .inr (.inl fun c => mergeChannel_of_inactive c (hi ▸ h))
    · exact .inr (.inr ⟨a, fun c => mergeChannel_of_edit c h hi⟩)

theorem mergeChannel_comm (c : ChannelStack) (r q : TraceRecord) :
    mergeChannel (mergeChannel c r) q = mergeChannel (mergeChannel c q) r := by
  rcases mergeChannel_cases r with hr | hr | ⟨a, hr⟩ <;> rcases mergeChannel_cases q with hq | hq | ⟨b, hq⟩ <;>
    simp only [hr, hq]
  · rw [addTrace_comm, Nat.add_right_comm]
  · rw [EditSet.add_comm]

/-- In one half-range counted from a base, "before" is the order of the distances from the base. -/
theorem ssnBefore_iff_of_base {base a b : Ssn} (ha : (a - base).toNat < 2147483648) (hb : (b - base).toNat < 2147483648) :
    ssnBefore a b = true ↔ (a - base).toNat < (b - base).toNat := by
  rw [ssnBefore_iff]
  have h : b - a = (b - base) - (a - base) := by bv_omega
  rw [h]
  generalize a - base = x at *
  generalize b - base = y at *
  bv_omega

theorem eq_of_base {base a b : Ssn} (h : (a - base).toNat = (b - base).toNat) : a = b := by
  have := BitVec.eq_of_toNat_eq h
  bv_omega

/-- The distance from the base of a first or last T0: a fold of 0 takes the new T0, a greater one the nearer or the
farther of the two. -/
def mergedDistance (pick : Nat → Nat → Nat) (base : Ssn) (fold : Nat) (old : Option Ssn) (t0 : Ssn) : Nat :=
  match old with
  | none => (t0 - base).toNat
  | some o => if fold = 0 then (t0 - base).toNat else pick (o - base).toNat (t0 - base).toNat

section HalfRange

variable {base t0 : Ssn} {old : Option Ssn} (fold : Nat) (ht : (t0 - base).toNat < 2147483648)
  (ho : ∀ o, old = some o → (o - base).toNat < 2147483648)

include ht ho

theorem mergeFirstT0_distance : ∃ x, mergeFirstT0 fold old t0 = some x ∧
    (x - base).toNat = mergedDistance min base fold old t0 := by
  cases old with
  | none => exact ⟨t0, rfl, rfl⟩
  | some o =>
    simp only [mergeFirstT0, mergedDistance, ssnBefore_iff_of_base ht (ho o rfl)]
    by_cases hfold : fold = 0
    · exact ⟨t0, by simp [hfold], by simp [hfold]⟩
    · simp only [hfold, false_or, if_false]
      split
      · exact ⟨t0, rfl, by omega⟩
      · exact ⟨o, rfl, by omega⟩

theorem mergeLastT0_distance : ∃ x, mergeLastT0 fold old t0 = some x ∧
    (x - base).toNat = mergedDistance max base fold old t0 := by
  cases old with
  | none => exact ⟨t0, rfl, rfl⟩
  | some o =>
    simp only [mergeLastT0, mergedDistance, ssnBefore_iff_of_base (ho o rfl) ht]
    by_cases hfold : fold = 0
    · exact ⟨t0, by simp [hfold], by simp [hfold]⟩
    · simp only [hfold, false_or, if_false]
      split
      · exact ⟨t0, rfl, by omega⟩
      · exact ⟨o, rfl, by omega⟩

end HalfRange

/-- Two T0s in either order: the distances from the base say which one stays. -/
theorem mergedT0_comm {pick : Nat → Nat → Nat} [Std.Commutative pick] [Std.Associative pick]
    (hpick : ∀ a b, pick a b = a ∨ pick a b = b) {base t1 t2 : Ssn} {fold : Nat} {old : Option Ssn}
    {merge : Nat → Option Ssn → Ssn → Option Ssn}
    (hmerge : ∀ (fold : Nat) {t0 : Ssn} {old : Option Ssn}, (t0 - base).toNat < 2147483648 →
      (∀ o, old = some o → (o - base).toNat < 2147483648) →
      ∃ x, merge fold old t0 = some x ∧ (x - base).toNat = mergedDistance pick base fold old t0)
    (h1 : (t1 - base).toNat < 2147483648) (h2 : (t2 - base).toNat < 2147483648)
    (ho : ∀ o, old = some o → (o - base).toNat < 2147483648) :
    merge (fold + 1) (merge fold old t2) t1 = merge (fold + 1) (merge fold old t1) t2 := by
  have hbound {t0 : Ssn} (ht : (t0 - base).toNat < 2147483648) : mergedDistance pick base fold old t0 < 2147483648 := by
    unfold mergedDistance
    cases old with
    | none => exact ht
    | some o =>
      dsimp only
      split
      · exact ht
      · rcases hpick (o - base).toNat (t0 - base).toNat with h | h <;> rw [h]
        · exact ho o rfl
        · exact ht
  obtain ⟨x, hx, hxd⟩ := hmerge fold h2 ho
  obtain ⟨y, hy, hyd⟩ := hmerge fold h1 ho
  rw [hx, hy]
  obtain ⟨u, hu, hud⟩ := hmerge (fold + 1) (old := some x) h1 fun o h => by
    rw [← Option.some.inj h, hxd]; exact hbound h2
  obtain ⟨v, hv, hvd⟩ := hmerge (fold + 1) (old := some y) h2 fun o h => by
    rw [← Option.some.inj h, hyd]; exact hbound h1
  rw [hu, hv]
  refine congrArg some (eq_of_base (base := base) ?_)
  rw [hud, hvd]
  simp only [mergedDistance, Nat.succ_ne_zero, if_false, hxd, hyd]
  cases old with
  | none => exact Std.Commutative.comm _ _
  | some o =>
    dsimp only
    split
    · exact Std.Commutative.comm _ _
    · rw [Std.Associative.assoc (op := pick), Std.Associative.assoc (op := pick),
        Std.Commutative.comm (op := pick) (t2 - base).toNat]

theorem mergeStack_records_comm (j1 j2 : Job) (sc1 sc2 : Scratch) (st : Stack) :
    (mergeStack j1 sc1 (mergeStack j2 sc2 st)).records = (mergeStack j2 sc2 (mergeStack j1 sc1 st)).records :=
  zipFirst_comm mergeChannel_comm _ _ _

theorem mergeStack_qcKept_comm (j1 j2 : Job) (sc1 sc2 : Scratch) (st : Stack) :
    (mergeStack j1 sc1 (mergeStack j2 sc2 st)).qcKept = (mergeStack j2 sc2 (mergeStack j1 sc1 st)).qcKept := by
  simp only [mergeStack]
  split <;> split <;> rfl

theorem mergeStack_corrSat_comm (j1 j2 : Job) (sc1 sc2 : Scratch) (st : Stack) :
    (mergeStack j1 sc1 (mergeStack j2 sc2 st)).corrSat = (mergeStack j2 sc2 (mergeStack j1 sc1 st)).corrSat := by
  simp only [mergeStack, Bool.or_assoc]
  rw [Bool.or_comm (decide _)]

/-- All fields of two merged stacks but first and last T0 agree. -/
theorem mergeStack_comm_but_t0 (j1 j2 : Job) (sc1 sc2 : Scratch) (st : Stack) (first last : Option Ssn) :
    { mergeStack j1 sc1 (mergeStack j2 sc2 st) with firstT0 := first, lastT0 := last } =
      { mergeStack j2 sc2 (mergeStack j1 sc1 st) with firstT0 := first, lastT0 := last } := by
  dsimp only
  rw [mergeStack_records_comm, mergeStack_qcKept_comm, mergeStack_corrSat_comm]
  rfl

/-- Settles O24: everything but first and last T0 commutes; in one half-range those do. -/
theorem mergesCommute : Obligations.MergesCommute := by
  intro j1 j2 sc1 sc2 st a b
  refine ⟨mergeStack_comm_but_t0 j1 j2 sc1 sc2 st none none, ?_⟩
  rintro ⟨base, h1, h2, hfirst, hlast⟩
  have hfirstEq : a.firstT0 = b.firstT0 :=
    mergedT0_comm (pick := min) (fun a b => by omega) (fun fold _ _ => mergeFirstT0_distance fold) h1 h2 hfirst
  have hlastEq : a.lastT0 = b.lastT0 :=
    mergedT0_comm (pick := max) (fun a b => by omega) (fun fold _ _ => mergeLastT0_distance fold) h1 h2 hlast
  calc a = { a with firstT0 := a.firstT0, lastT0 := a.lastT0 } := rfl
    _ = { b with firstT0 := a.firstT0, lastT0 := a.lastT0 } := mergeStack_comm_but_t0 j1 j2 sc1 sc2 st _ _
    _ = b := by rw [hfirstEq, hlastEq]

end Sys2Proof.Machine

/-! PROOFS. The bounds of every stack (R122, R123, R127, R128), of snapshots and of scratches, over every step. -/

namespace Sys2Proof.Machine

/-! ### What a merge adds (R113, R128) -/

theorem mem_zipFirst {α β : Type} {f : α → β → α} {l : List α} {m : List β} {x : α} (h : x ∈ zipFirst f l m) :
    x ∈ l ∨ ∃ a ∈ l, ∃ b ∈ m, x = f a b := by
  obtain ⟨i, hi⟩ := List.mem_iff_getElem?.1 h
  rw [zipFirst_getElem?] at hi
  cases hl : l[i]? with
  | none => simp [hl] at hi
  | some a =>
    cases hm : m[i]? with
    | none =>
      obtain rfl : a = x := by simpa [hl, hm] using hi
      exact .inl (List.mem_of_getElem? hl)
    | some b =>
      exact .inr ⟨a, List.mem_of_getElem? hl, b, List.mem_of_getElem? hm, by simpa [hl, hm] using hi.symm⟩

theorem ChannelStack.ok.mono {fold : Nat} {c : ChannelStack} (h : c.ok fold) : c.ok (fold + 1) :=
  ⟨h.1.trans (Nat.le_succ fold), h.2⟩

/-- One accepted trace adds at most 65,535 × 2^31 to an accumulator. -/
theorem addTrace_le {w n : Nat} {acc trace : List Int} (hw : w ≤ 65535)
    (hacc : ∀ a ∈ acc, a.natAbs ≤ 65535 * 2147483648 * n)
    (htrace : ∀ v ∈ trace, -2147483648 ≤ v ∧ v ≤ 2147483647) :
    ∀ a ∈ addTrace w acc trace, a.natAbs ≤ 65535 * 2147483648 * (n + 1) := by
  intro a ha
  rcases mem_zipFirst ha with ha | ⟨a0, ha0, v, hv, rfl⟩
  · have := hacc a ha
    omega
  · have ha0 := hacc a0 ha0
    have hproduct : ((w : Int) * v).natAbs ≤ 65535 * 2147483648 := by
      rw [Int.natAbs_mul]
      have hv := htrace v hv
      exact Nat.mul_le_mul (by simpa using hw) (by omega)
    have hsum := Int.natAbs_add_le a0 (w * v)
    omega

theorem ChannelStack.ok.merge {fold : Nat} {c : ChannelStack} (hc : c.ok fold) {r : TraceRecord} (hr : r.ok) :
    (mergeChannel c r).ok (fold + 1) := by
  rcases hcause : r.cause with _ | a
  · obtain ⟨hcount, hlow, hhigh, hacc⟩ := hc
    obtain ⟨hweight, -, htrace⟩ := hr
    obtain ⟨hone, hmost⟩ := hweight hcause
    rw [mergeChannel_of_none c hcause]
    refine ⟨?_, ?_, ?_, addTrace_le hmost hacc htrace⟩ <;> dsimp only <;> omega
  · by_cases hi : a = .inactive
    · rw [mergeChannel_of_inactive c (hi ▸ hcause)]
      exact hc.mono
    · obtain ⟨hcount, hbounds⟩ := hc
      rw [mergeChannel_of_edit c hcause hi]
      exact ⟨by dsimp only; omega, hbounds⟩

@[simp] theorem mergeChannel_acc_length (c : ChannelStack) (r : TraceRecord) :
    (mergeChannel c r).acc.length = c.acc.length := by
  rcases mergeChannel_cases r with h | h | ⟨a, h⟩ <;> rw [h]
  exact zipFirst_length _ _ _

/-- Every record of a merged stack is an old one or an old one with a scratch record merged in. -/
theorem mem_mergeStack_records {j : Job} {sc : Scratch} {st : Stack} {c : ChannelStack}
    (h : c ∈ (mergeStack j sc st).records) :
    c ∈ st.records ∨ ∃ c0 ∈ st.records, ∃ r ∈ sc.records, c = mergeChannel c0 r :=
  mem_zipFirst h

theorem mergeStack_records_ok (j : Job) {sc : Scratch} {st : Stack} (hsc : ∀ r ∈ sc.records, r.ok)
    (hst : ∀ c ∈ st.records, c.ok st.fold) : ∀ c ∈ (mergeStack j sc st).records, c.ok (st.fold + 1) := by
  intro c hc
  rcases mem_mergeStack_records hc with hc | ⟨c0, hc0, r, hr, rfl⟩
  · exact (hst c hc).mono
  · exact (hst c0 hc0).merge (hsc r hr)

theorem mergeFirstT0_isSome (fold : Nat) (old : Option Ssn) (t0 : Ssn) : (mergeFirstT0 fold old t0).isSome = true := by
  unfold mergeFirstT0
  split
  · rfl
  · split <;> rfl

theorem mergeLastT0_isSome (fold : Nat) (old : Option Ssn) (t0 : Ssn) : (mergeLastT0 fold old t0).isSome = true := by
  unfold mergeLastT0
  split
  · rfl
  · split <;> rfl

/-! ### A stack within its bounds -/

/-- The bounds read neither phase, key, tag nor the counts of resolved sweeps; fewer may be pending. -/
theorem Stack.ok.of_same {channels : Nat} {st st' : Stack} (h : st.ok channels) (hpending : st'.pending ≤ st.pending)
    (hfold : st'.fold = st.fold) (hkept : st'.qcKept = st.qcKept) (hfirst : st'.firstT0 = st.firstT0)
    (hlast : st'.lastT0 = st.lastT0) (hchannels : st'.channels = st.channels) (hrecords : st'.records = st.records)
    (hlisten : st'.listen = st.listen) : st'.ok channels := by
  obtain ⟨hsum, hqc, hf, hl, hch, hlen, hrec⟩ := h
  unfold Stack.ok
  rw [hfold, hkept, hfirst, hlast, hchannels, hrecords, hlisten]
  exact ⟨by omega, hqc, hf, hl, hch, hlen, hrec⟩

theorem Stack.ok.resolvedWith {channels : Nat} {st : Stack} (h : st.ok channels) (out : SweepOutcome) (order : Word32) :
    (st.resolvedWith out order).ok channels := by
  unfold Stack.resolvedWith
  split <;> exact h.of_same (Nat.sub_le _ _) rfl rfl rfl rfl rfl rfl rfl

/-- A merge and the resolution of its sweep: one more in the fold, one fewer pending. -/
theorem Stack.ok.merged {channels : Nat} {st : Stack} (h : st.ok channels) (hpending : 1 ≤ st.pending) (j : Job)
    {sc : Scratch} (hsc : ∀ r ∈ sc.records, r.ok) (order : Word32) :
    ((mergeStack j sc st).resolvedWith .merged order).ok channels := by
  obtain ⟨hsum, hqc, hf, hl, hch, hlen, hrec⟩ := h
  have hmerged : ({ mergeStack j sc st with pending := st.pending - 1 } : Stack).ok channels := by
    refine ⟨by simp only [mergeStack]; omega, ?_, ?_, ?_, hch, (zipFirst_length _ _ _).trans hlen, fun c hc => ?_⟩
    · simp only [mergeStack]
      split <;> omega
    · exact iff_of_true (mergeFirstT0_isSome _ _ _) (Nat.succ_le_succ (Nat.zero_le _))
    · exact iff_of_true (mergeLastT0_isSome _ _ _) (Nat.succ_le_succ (Nat.zero_le _))
    · refine ⟨mergeStack_records_ok j hsc (fun c hc => (hrec c hc).1) c hc, ?_⟩
      rcases mem_mergeStack_records (j := j) hc with hc | ⟨c0, hc0, r, -, rfl⟩
      · exact (hrec c hc).2
      · rw [mergeChannel_acc_length]; exact (hrec c0 hc0).2
  refine hmerged.of_same (Stack.resolvedWith_pending _ _ _).le ?_ ?_ ?_ ?_ ?_ ?_ ?_ <;>
    (unfold Stack.resolvedWith; split <;> rfl)

theorem ChannelStack.opening_ok (listen : Nat) :
    (ChannelStack.opening listen).ok 0 ∧ (ChannelStack.opening listen).acc.length = listen := by
  refine ⟨⟨le_rfl, le_rfl, le_rfl, fun a ha => ?_⟩, List.length_replicate⟩
  rw [(List.mem_replicate.1 ha).2]
  simp

/-! ### The invariant by its rules -/

/-- A lane's snapshot or scratch has the stream's channels (R101, R110). -/
def Lane.Bounded (channels : Nat) : Lane → Prop
  | .idle => True
  | .correlating j => j.snapshot.length = channels
  | .mergeWait _ sc => sc.ok channels
  | .merging _ sc => sc.ok channels

/-- `BoundsInv` with a name for each of its rules, and C in its range. -/
structure BoundsRules (s : State) : Prop where
  channels : s.ingest.channels ≤ Config.channels
  slot : ∀ (k : Fin Config.stackSlots) (st : Stack), s.slots[k] = some st → st.ok s.ingest.channels
  lane : ∀ l : Fin Config.lanes, (s.lanes[l]).Bounded s.ingest.channels

theorem boundsInv_iff (s : State) : BoundsInv s ∧ s.ingest.channels ≤ Config.channels ↔ BoundsRules s := by
  have hlane : ∀ l : Fin Config.lanes, (s.lanes[l]).Bounded s.ingest.channels ↔
      match s.lanes[l] with
      | .idle => True
      | .correlating j => j.snapshot.length = s.ingest.channels
      | .mergeWait _ sc => sc.ok s.ingest.channels
      | .merging _ sc => sc.ok s.ingest.channels := fun l => by cases s.lanes[l] <;> exact Iff.rfl
  constructor
  · rintro ⟨⟨hslots, hlanes⟩, hchannels⟩
    exact ⟨hchannels, hslots, fun l => (hlane l).2 (hlanes l)⟩
  · rintro ⟨hchannels, hslots, hlanes⟩
    exact ⟨⟨hslots, fun l => (hlane l).1 (hlanes l)⟩, hchannels⟩

namespace BoundsRules

variable {s t : State}

theorem of_same (h : BoundsRules s) (hchannels : t.ingest.channels = s.ingest.channels)
    (hslots : ∀ (k : Fin Config.stackSlots) (st : Stack), t.slots[k] = some st → st.ok s.ingest.channels)
    (hlanes : ∀ l : Fin Config.lanes, (t.lanes[l]).Bounded s.ingest.channels) : BoundsRules t := by
  refine ⟨?_, ?_, ?_⟩ <;> rw [hchannels]
  · exact h.channels
  · exact hslots
  · exact hlanes

theorem of_eq (h : BoundsRules s) (hchannels : t.ingest.channels = s.ingest.channels) (hslots : t.slots = s.slots)
    (hlanes : t.lanes = s.lanes) : BoundsRules t :=
  h.of_same hchannels (fun k st hst => h.slot k st (by rw [← hslots]; exact hst)) fun l => by rw [hlanes]; exact h.lane l

/-- One slot is written with a stack within the bounds, or freed. -/
theorem setSlot (h : BoundsRules s) {k : Fin Config.stackSlots} {x : Option Stack}
    (hx : ∀ st, x = some st → st.ok s.ingest.channels) : BoundsRules (s.setSlot k x) := by
  refine h.of_same rfl (fun i st hst => ?_) h.lane
  rw [State.setSlot_slots, vector_set_getElem] at hst
  split at hst
  · exact hx st hst
  · exact h.slot i st hst

/-- One lane is written. -/
theorem setLane (h : BoundsRules s) {l : Fin Config.lanes} {v : Lane} (hv : v.Bounded s.ingest.channels) :
    BoundsRules (s.setLane l v) := by
  refine h.of_same rfl h.slot fun i => ?_
  rw [State.setLane_lanes, vector_set_getElem]
  split
  · exact hv
  · exact h.lane i

theorem of_empty (hchannels : t.ingest.channels ≤ Config.channels)
    (hslots : ∀ k : Fin Config.stackSlots, t.slots[k] = none) (hlanes : ∀ l : Fin Config.lanes, t.lanes[l] = .idle) :
    BoundsRules t := by
  refine ⟨hchannels, fun k st hst => ?_, fun l => ?_⟩
  · rw [hslots] at hst
    exact absurd hst nofun
  · rw [hlanes]
    exact trivial

theorem sealedAs (h : BoundsRules s) {k : Fin Config.stackSlots} {st : Stack} (hst : s.slots[k] = some st)
    (cause : SealCause) : BoundsRules (s.sealedAs k cause st) := by
  have hphase (phase : StackPhase) : ({ st with phase := phase } : Stack).ok s.ingest.channels :=
    (h.slot k st hst).of_same le_rfl rfl rfl rfl rfl rfl rfl rfl
  have hwritten (phase : StackPhase) : BoundsRules (s.setSlot k (some { st with phase := phase })) :=
    h.setSlot fun st' hst' => Option.some.inj hst' ▸ hphase phase
  unfold State.sealedAs
  dsimp only
  split
  · exact (hwritten (.draining cause)).of_eq rfl rfl rfl
  · exact (hwritten (.sealed cause s.sealOrders)).of_eq rfl rfl rfl

theorem removeEntry (h : BoundsRules s) (e : SweepEntry) : BoundsRules (removeEntry e s) := by
  have hremoved : BoundsRules ({ s with sweeps := removeFirst (fun x => decide (x.number = e.number)) s.sweeps }.unpinPilot
      e.pilot) := h.of_eq rfl rfl rfl
  unfold Machine.removeEntry abortJob
  split
  · exact hremoved.setLane trivial
  · exact hremoved

theorem resolveStack {ev : Event} (h : BoundsRules ev.st) (k : Fin Config.stackSlots) {out : SweepOutcome}
    (hout : out ≠ .droppedClear) : BoundsRules (resolveStack k out ev).st := by
  rw [resolveStack_eq k hout]
  cases hst : ev.st.slots[k] with
  | none => exact h
  | some st =>
    have hok := (h.slot k st hst).resolvedWith out ev.st.sealOrders
    unfold Stack.resolvedWith at hok
    dsimp only
    cases hdrains : st.drainsWith with
    | none =>
      rw [hdrains] at hok
      exact h.setSlot fun st' hst' => Option.some.inj hst' ▸ hok
    | some c =>
      rw [hdrains] at hok
      have hset : BoundsRules (ev.st.setSlot k (some { st.countedFor out with phase := .sealed c ev.st.sealOrders })) :=
        h.setSlot fun st' hst' => Option.some.inj hst' ▸ hok
      exact hset.of_eq rfl rfl rfl

theorem resolve {ev : Event} (h : BoundsRules ev.st) {out : SweepOutcome} (hout : out ≠ .droppedClear)
    (counts : Option JobCounts) (e : SweepEntry) : BoundsRules (resolve out counts e ev).st := by
  unfold Machine.resolve
  dsimp only
  rw [if_neg hout]
  exact resolveStack (h.removeEntry e) e.slot hout

end BoundsRules

/-- The snapshot of a grant has the stream's channels (R101). -/
theorem channelSnapshot_length {s : State} (h : s.ingest.channels ≤ Config.channels) :
    (channelSnapshot s).length = s.ingest.channels := by
  simp [channelSnapshot, h]

theorem Change.keeps_boundsRules {a b : Event} (h : Change a b) (ha : BoundsRules a.st) : BoundsRules b.st := by
  cases h with
  | cause => exact ha
  | flush => exact ha.of_eq (by simp) (by simp) (by simp)
  | links h => exact ha.of_eq (by rw [Event.change_st, h.ingest]) h.slots h.lanes
  | pilots => exact ha.of_eq rfl rfl rfl
  | latches => exact ha.of_eq rfl rfl rfl
  | @settle e qc fails he =>
    obtain ⟨ev1, hst, -, h⟩ := settleSweep_cases e (e.settle qc fails) a
    have hupdated : BoundsRules ev1.st := by
      rw [hst]
      exact ha.of_eq rfl rfl rfl
    rcases h with h | ⟨-, h⟩ <;> rw [h]
    · exact hupdated
    · exact hupdated.resolve (out := .rejectedQc) nofun _ _
  | resolve _ hout he => exact ha.resolve hout _ _
  | sealed cause hst =>
    rw [sealSlot_eq]
    exact ha.sealedAs hst cause
  | @linger k st fl ms _ hst =>
    exact ha.setSlot (k := k) fun st' hst' => Option.some.inj hst' ▸
      (ha.slot k st hst).of_same le_rfl rfl rfl rfl rfl rfl rfl rfl
  | @grant e l =>
    have hupdated : BoundsRules (a.st.updateSweep e.number fun x => { x with stage := .correlating l }) :=
      ha.of_eq rfl rfl rfl
    exact hupdated.setLane (channelSnapshot_length ha.channels)

theorem ClockChange.keeps_boundsRules {a b : Event} (h : ClockChange a b) (ha : BoundsRules a.st) : BoundsRules b.st := by
  cases h with
  | change h => exact h.keeps_boundsRules ha
  | clock => exact ha.of_eq rfl rfl rfl

theorem StreamChange.keeps_boundsRules {a b : Event} (h : StreamChange a b) (ha : BoundsRules a.st) :
    BoundsRules b.st := by
  cases h with
  | change h => exact h.keeps_boundsRules ha
  | stream h => exact ha.of_eq h.channels h.slots h.lanes
  | arrive => exact ha.of_eq rfl rfl rfl
  | slip => exact ha.of_eq rfl rfl rfl

/-! ### Commands of their own -/

/-- A lane that takes or waits for its port carries the scratch it has written. -/
theorem BoundsRules.askPort {s : State} (h : BoundsRules s) (l : Fin Config.lanes) (j : Job) {sc : Scratch}
    (hsc : sc.ok s.ingest.channels) : BoundsRules (askPort l j sc s) := by
  have hport (p : MergePort) : BoundsRules (s.setPort j.slot p) := h.of_eq rfl rfl rfl
  unfold Machine.askPort
  dsimp only
  split
  · exact (hport _).setLane hsc
  · exact (hport _).setLane hsc

/-- A lane that leaves the waiting list takes its scratch along. -/
theorem BoundsRules.passPort {s : State} (h : BoundsRules s) (k : Fin Config.stackSlots) : BoundsRules (passPort k s) := by
  have hport (p : MergePort) : BoundsRules (s.setPort k p) := h.of_eq rfl rfl rfl
  unfold Machine.passPort
  split
  · exact hport _
  next l rest _ =>
    unfold beginMerge
    split
    next j sc hlane =>
      have hsc := h.lane l
      rw [State.setPort_lanes] at hlane
      rw [hlane] at hsc
      exact (hport _).setLane hsc
    · exact hport _

theorem applyMerge_ingest (j : Job) (sc : Scratch) (s : State) : (applyMerge j sc s).ingest = s.ingest := by
  unfold applyMerge
  split <;> rfl

theorem applyMerge_slot (j : Job) (sc : Scratch) (s : State) (k : Fin Config.stackSlots) :
    (applyMerge j sc s).slots[k] = if j.slot = k then (s.slots[k]).map (mergeStack j sc) else s.slots[k] := by
  unfold applyMerge
  split
  next hnone =>
    split
    next hk => rw [← hk, hnone]; rfl
    · rfl
  next st hst =>
    rw [State.setSlot_slots, vector_set_getElem]
    split
    next hk => rw [← hk, hst]; rfl
    · rfl

/-- The stack of a merging job's slot counts the job's sweep. -/
theorem ClaimRules.pending_pos {s : State} (h : ClaimRules s) {e : SweepEntry} (he : e ∈ s.sweeps) :
    ∃ st, s.slots[e.slot] = some st ∧ 1 ≤ st.pending := by
  have hone : 1 ≤ entriesOf s e.slot := List.length_pos_of_mem (List.mem_filter.2 ⟨he, by simp⟩)
  have hslot := h.slots e.slot
  cases hst : s.slots[e.slot] with
  | none => rw [hst] at hslot; exact absurd hslot (by simp only [SlotClaim]; omega)
  | some st => rw [hst] at hslot; exact ⟨st, rfl, hslot.1 ▸ hone⟩

theorem BoundsRules.mergeEvent {s : State} (h : BoundsRules s) (hclaims : ClaimRules s) (hlanes : LaneRules s)
    {l : Fin Config.lanes} {j : Job} {sc : Scratch} (hlane : s.lanes[l] = .merging j sc) :
    BoundsRules ((resolveMerged j sc (Event.start (applyMerge j sc s))).change fun u =>
      Machine.passPort j.slot (u.setLane l .idle)).st := by
  have hsc : sc.ok s.ingest.channels := by
    have := h.lane l
    rw [hlane] at this
    exact this
  obtain ⟨e, he, hnumber, -, hslot⟩ := hlanes.work.job l j (.merging l) (by
    rw [show s.lane l = .merging j sc from hlane]; rfl)
  obtain ⟨st, hst, hpending⟩ := hclaims.pending_pos he
  have hresolved := resolveMerged_of_mem hclaims.numbers he hnumber sc
  have haside := (resolveMerged_aside j sc (Event.start (applyMerge j sc s))).ingest
  rw [hresolved, Event.start_st, applyMerge_ingest] at haside
  have hmerged : BoundsRules ((applyMerge j sc s).resolvedAs e .merged) := by
    refine h.of_same (congrArg Ingest.channels haside) (fun k st' hst' => ?_) fun i => ?_
    · rw [State.resolvedAs_slots, applyMerge_slot, applyMerge_slot, if_pos hslot.symm, hst] at hst'
      by_cases hk : e.slot = k
      · rw [if_pos hk] at hst'
        rw [← Option.some.inj hst']
        exact (h.slot e.slot st hst).merged hpending j hsc.2 _
      · rw [if_neg hk, if_neg (hslot ▸ hk)] at hst'
        exact h.slot k st' hst'
    · show ((State.resolvedAs (applyMerge j sc s) e .merged).lane i).Bounded _
      rw [State.resolvedAs_lane, (applyMerge_lanes j sc s).1]
      split
      · exact trivial
      · exact h.lane i
  rw [hresolved, Event.change_st]
  exact (hmerged.setLane (l := l) (v := .idle) trivial).passPort j.slot

theorem BoundsRules.sealMoved {s : State} (h : BoundsRules s) (fl : Fin Config.fleets) (vp : Word32) :
    BoundsRules (sealMoved fl vp (Event.start s)).st := by
  rcases sealMoved_cases fl vp (Event.start s) with hm | ⟨k, st, hopen, -, hm⟩ <;> rw [hm]
  · exact h
  · rw [sealSlot_eq]
    exact h.sealedAs (openStack_eq hopen).2 .fleetMoved

theorem BoundsRules.opened {s : State} (h : BoundsRules s) (k : Fin Config.stackSlots) (fl : Fin Config.fleets)
    (vp : Word32) : BoundsRules (s.openSlot k fl vp) := by
  unfold State.openSlot
  dsimp only
  refine (h.setSlot (k := k) fun st hst => ?_).of_eq rfl rfl rfl
  rw [← Option.some.inj hst]
  refine ⟨by dsimp only; omega, le_rfl, by simp, by simp, rfl, List.length_replicate, fun c hc => ?_⟩
  rw [(List.mem_replicate.1 hc).2]
  exact ChannelStack.opening_ok _

theorem BoundsRules.joined {s : State} (h : BoundsRules s) {k : Fin Config.stackSlots} {st : Stack}
    (hst : s.slots[k] = some st) (hfold : st.fold + st.pending < 32) : BoundsRules (s.joinSlot k st) := by
  obtain ⟨-, hrest⟩ := h.slot k st hst
  refine h.setSlot fun st' hst' => ?_
  rw [← Option.some.inj hst']
  exact ⟨by dsimp only; omega, hrest⟩

/-- With an empty table no lane works. -/
theorem LaneRules.idle_of_empty {s : State} (h : LaneRules s) (hsweeps : s.sweeps = []) (l : Fin Config.lanes) :
    s.lanes[l] = .idle := by
  have hnone (j : Job) (stage : Stage) : (s.lane l).work l ≠ some (j, stage) := fun hwork => by
    obtain ⟨e, he, -⟩ := h.work.job l j stage hwork
    rw [hsweeps] at he
    exact absurd he List.not_mem_nil
  show s.lane l = .idle
  cases hlane : s.lane l with
  | idle => rfl
  | correlating j => exact absurd (by rw [hlane]; rfl) (hnone j (.correlating l))
  | mergeWait j sc => exact absurd (by rw [hlane]; rfl) (hnone j (.merging l))
  | merging j sc => exact absurd (by rw [hlane]; rfl) (hnone j (.merging l))

theorem Single.keeps_boundsRules {c : Instr} {s : State} {ev : Event} (h : Single c s ev)
    (hring : RingRules s.ring s.ingest) (hclaims : ClaimRules s) (hlanes : LaneRules s) (hs : BoundsRules s) :
    BoundsRules ev.st := by
  cases h with
  | reset => exact .of_empty (by simp [State.reset, Ingest.reset]) (by simp [State.reset]) (by simp [State.reset])
  | @join _ fl vp p t0 n _ _ energy k st _ _ _ hopen hfold =>
    exact (hs.joined (openStack_eq hopen).2 hfold).of_eq rfl rfl rfl
  | @fresh _ fl vp p t0 n _ _ energy k =>
    have hsealed := hs.sealMoved fl vp
    generalize sealMoved fl vp (Event.start s) = ev at hsealed
    exact (hsealed.opened k fl vp).of_eq rfl rfl rfl
  | @correlate _ l j hlane =>
    have hupdated : BoundsRules (s.updateSweep j.sweep fun x => { x with stage := .merging l }) := hs.of_eq rfl rfl rfl
    have hsnapshot := hs.lane l
    rw [hlane] at hsnapshot
    exact hupdated.askPort l j ⟨(correlate_records_length j s).trans hsnapshot, correlate_ok hring j⟩
  | merge hlane => exact hs.mergeEvent hclaims hlanes hlane
  | setup i hchannels hquiet =>
    exact .of_empty hchannels (isQuiet_slots hquiet) (hlanes.idle_of_empty ((isQuiet_iff s).1 hquiet).1)
  | channelSet => exact hs.of_eq rfl rfl rfl
  | fleetSet => exact hs.of_eq rfl rfl rfl
  | mask => exact hs.of_eq rfl rfl rfl
  | release => exact (hs.setSlot (x := none) nofun).of_eq rfl rfl rfl
  | @read _ k st r hst =>
    unfold moveToHarvesting
    split
    · refine (hs.setSlot (k := k) fun st' hst' => ?_).of_eq rfl rfl rfl
      rw [← Option.some.inj hst']
      exact (hs.slot k st hst).of_same le_rfl rfl rfl rfl rfl rfl rfl rfl
    · exact hs.of_eq rfl rfl rfl
  | clear =>
    refine .of_empty ?_ (by simp [clearEvent, clearBlocks]) (by simp [clearEvent, clearBlocks])
    have haside := (resolveAll_spec (fun _ => true) .droppedClear (Event.start s)).1
    show (resolveAll (fun _ => true) .droppedClear (Event.start s)).st.ingest.channels ≤ _
    rw [haside.ingest]
    exact hs.channels

/-- Settles O25: R128's bounds over a merge, and the bounds of every slot and lane over every step. -/
theorem stackBoundsSurviveMerges : Obligations.StackBoundsSurviveMerges := by
  refine ⟨fun j sc st hsc hst => ⟨rfl, mergeStack_records_ok j hsc hst, zipFirst_length _ _ _⟩, ?_⟩
  intro s t hring hclaims hlanes hbounds hstep
  obtain ⟨c, q, hhappens⟩ := step_happens hstep
  rw [ringInv_iff] at hring
  rw [claimInv_iff] at hclaims
  rw [laneInv_iff] at hlanes
  have hrules : BoundsRules s := (boundsInv_iff s).1 ⟨hbounds, hring.channels⟩
  have hkept := happens_keeps (s := { s with pending := q }) (P := fun ev => BoundsRules ev.st) (fun _ _ h => h.keeps_boundsRules)
    (fun _ _ h => h.keeps_boundsRules) (fun _ _ h => h.keeps_boundsRules)
    (fun _ u _ _ hu h hb => h.keeps_boundsRules (by rw [hu.ring, hu.ingest]; exact hring)
      (hclaims.of_eq hu.sweeps hu.pilots hu.slots) (hlanes.of_eq hu.sweeps hu.lanes hu.ports) hb)
    (hrules.of_eq rfl rfl rfl) hhappens
  exact ((boundsInv_iff t).2 hkept).1

end Sys2Proof.Machine

/-! PROOFS. Frames (sections 9.1, 9.6, 9.8): the CRC, the envelope read back, and the fields of every payload. -/

namespace Sys2Proof.Machine

/-! ### The CRC tells two bytes apart (R163) -/

/-- The top bit of the shifted register tells whether the polynomial was added. -/
theorem crcBit_msb (r : Word32) : (crcBit r).getLsbD 31 = r.getLsbD 0 := by
  unfold crcBit
  split
  next h => simp [h]
  next h => simpa using h

theorem crcBit_injective : Function.Injective crcBit := by
  intro a b h
  have hlow : a.getLsbD 0 = b.getLsbD 0 := by rw [← crcBit_msb a, ← crcBit_msb b, h]
  have hshift : a >>> 1 = b >>> 1 := by
    unfold crcBit at h
    rw [hlow] at h
    split at h
    · exact (BitVec.xor_left_inj _).1 h
    · exact h
  refine BitVec.eq_of_getLsbD_eq fun i hi => ?_
  cases i with
  | zero => exact hlow
  | succ i =>
    have := congrArg (fun x => x.getLsbD i) hshift
    simpa [Nat.add_comm] using this

theorem crcByte_injective (b : Byte) : Function.Injective fun r => crcByte r b := fun _ _ h =>
  (BitVec.xor_left_inj _).1 (crcBit_injective.iterate 8 h)

theorem crcByte_ne {a b : Byte} (h : a ≠ b) (r : Word32) : crcByte r a ≠ crcByte r b := by
  intro heq
  have hwide : a.setWidth 32 = b.setWidth 32 := (BitVec.xor_right_inj _).1 (crcBit_injective.iterate 8 heq)
  exact h (by bv_omega)

/-- Registers that differ stay different over the same bytes. -/
theorem foldl_crcByte_injective (l : List Byte) : Function.Injective fun r => l.foldl crcByte r := by
  induction l with
  | nil => exact Function.injective_id
  | cons b l ih => exact ih.comp (crcByte_injective b)

/-- Settles O18: the check value, and one byte's change told apart by every register behind it. -/
theorem crcDetectsAByteChange : Obligations.CrcDetectsAByteChange := by
  refine ⟨Tests.test_crc, fun before after a b hne heq => ?_⟩
  have hfold := BitVec.not_inj.1 heq
  rw [List.foldl_append, List.foldl_append, List.foldl_cons, List.foldl_cons] at hfold
  exact crcByte_ne hne _ (foldl_crcByte_injective after hfold)

/-! ### Fields at their places -/

theorem byteAt_of {p : List Byte} {i n : Nat} (h : p.getD i 0 = BitVec.ofNat 8 n) (hn : n < 256) : byteAt p i = n := by
  rw [byteAt, h, ofNat8_toNat hn]

theorem halfAt_of {p : List Byte} {i n : Nat} (h0 : p.getD i 0 = BitVec.ofNat 8 (n / 256))
    (h1 : p.getD (i + 1) 0 = BitVec.ofNat 8 n) (hn : n < 65536) : halfAt p i = n := by
  rw [halfAt, byteAt, byteAt, h0, h1, ofNat16_toNat hn]

theorem wordAt_of {p : List Byte} {i : Nat} {w : Word32} (h0 : p.getD i 0 = BitVec.ofNat 8 (w.toNat / 65536 / 256))
    (h1 : p.getD (i + 1) 0 = BitVec.ofNat 8 (w.toNat / 65536))
    (h2 : p.getD (i + 2) 0 = BitVec.ofNat 8 (w.toNat % 65536 / 256))
    (h3 : p.getD (i + 3) 0 = BitVec.ofNat 8 (w.toNat % 65536)) : wordAt p i = w := by
  rw [wordAt, halfAt, halfAt, byteAt, byteAt, byteAt, byteAt, h0, h1, h2, h3, encWord_toNat]

/-- Four bytes of a number read back as the word that holds it. -/
theorem wordAt_of_enc32 {p : List Byte} {i n : Nat} (h0 : p.getD i 0 = BitVec.ofNat 8 (n / 65536 / 256))
    (h1 : p.getD (i + 1) 0 = BitVec.ofNat 8 (n / 65536))
    (h2 : p.getD (i + 2) 0 = BitVec.ofNat 8 (n % 65536 / 256))
    (h3 : p.getD (i + 3) 0 = BitVec.ofNat 8 (n % 65536)) : wordAt p i = BitVec.ofNat 32 n := by
  rw [wordAt, halfAt, halfAt, byteAt, byteAt, byteAt, byteAt, h0, h1, h2, h3]
  refine BitVec.eq_of_toNat_eq ?_
  simp only [BitVec.toNat_ofNat]
  omega

/-- A set carried in one byte has its members at their bits. -/
theorem bitSet_getLsbD {l : List Bool} (h : l.length ≤ 8) (i : Nat) :
    (BitVec.ofNat 8 (bitSet l)).getLsbD i = l.getD i false := by
  rw [BitVec.getLsbD_ofNat, bitSet_testBit]
  by_cases hi : i < 8
  · simp [hi]
  · rw [List.getD_eq_default _ _ (by omega)]
    simp

/-! ### The envelope (R162) -/

theorem enc16_bytes (a b : Byte) : enc16 (a.toNat * 256 + b.toNat) = [a, b] := by
  have ha := a.isLt
  have hb := b.isLt
  unfold enc16
  congr 1
  · exact BitVec.eq_of_toNat_eq (by simp only [BitVec.toNat_ofNat]; omega)
  · congr 1
    exact BitVec.eq_of_toNat_eq (by simp only [BitVec.toNat_ofNat]; omega)

theorem encWord_wordAt (a b c d : Byte) : encWord (wordAt [a, b, c, d] 0) = [a, b, c, d] := by
  have hc : c.toNat * 256 + d.toNat < 65536 := halfAt_lt [c, d] 0
  have hhigh : a.toNat * 256 + b.toNat < 65536 := halfAt_lt [a, b] 0
  have hword : (wordAt [a, b, c, d] 0).toNat = (a.toNat * 256 + b.toNat) * 65536 + (c.toNat * 256 + d.toNat) := by
    show (BitVec.ofNat 32 ((a.toNat * 256 + b.toNat) * 65536 + (c.toNat * 256 + d.toNat))).toNat = _
    rw [BitVec.toNat_ofNat]
    omega
  unfold encWord enc32
  rw [hword, show ((a.toNat * 256 + b.toNat) * 65536 + (c.toNat * 256 + d.toNat)) / 65536 = a.toNat * 256 + b.toNat by
      omega,
    show ((a.toNat * 256 + b.toNat) * 65536 + (c.toNat * 256 + d.toNat)) % 65536 = c.toNat * 256 + d.toNat by omega,
    enc16_bytes, enc16_bytes]
  rfl

theorem wordAt_append_right (p q : List Byte) {n : Nat} (h : p.length = n) : wordAt (p ++ q) n = wordAt q 0 := by
  subst h
  have hfirst : byteAt (p ++ q) p.length = byteAt q 0 := byteAt_append_right p q 0
  unfold wordAt halfAt
  simp only [Nat.add_assoc, byteAt_append_right, hfirst, Nat.zero_add]

theorem encWord_append_wordAt (w : Word32) (p : List Byte) : wordAt (encWord w ++ p) 0 = w :=
  wordAt_of rfl rfl rfl rfl

/-- A frame of an allowed length passes the check as what it was made of. -/
theorem readFrame_frameBytes (kind tag : Byte) {payload : List Byte} (h : payload.length ≤ 32832) :
    readFrame (frameBytes kind tag payload) = some { kind := kind, tag := tag, payload := payload } := by
  have hhalf : halfAt (frameBytes kind tag payload) 2 = payload.length := halfAt_of rfl rfl (by omega)
  have hbody : (kind :: tag :: (enc16 payload.length ++ payload)).length = 4 + payload.length := by
    simp only [List.length_cons, List.length_append, enc16_length]
    omega
  have hlength : (frameBytes kind tag payload).length = 8 + payload.length := by
    unfold frameBytes
    rw [List.length_append, hbody, encWord_length]
    omega
  have htake : (frameBytes kind tag payload).take (4 + payload.length) =
      kind :: tag :: (enc16 payload.length ++ payload) := List.take_left' hbody
  have hcrc : wordAt (frameBytes kind tag payload) (4 + payload.length) =
      crc32 (kind :: tag :: (enc16 payload.length ++ payload)) := by
    unfold frameBytes
    dsimp only
    rw [wordAt_append_right _ _ hbody, ← List.append_nil (encWord _), encWord_append_wordAt]
  have hpayload : ((frameBytes kind tag payload).drop 4).take payload.length = payload := List.take_left
  unfold readFrame
  dsimp only
  rw [hhalf, htake, hcrc, hlength, hpayload]
  rw [if_pos ⟨by omega, h, rfl, rfl⟩]
  rfl

/-- Bytes that pass the check are the frame of what they are read as. -/
theorem readFrame_some {bytes : List Byte} {f : Frame} (h : readFrame bytes = some f) :
    f.payload.length ≤ 32832 ∧ bytes = frameBytes f.kind f.tag f.payload := by
  unfold readFrame at h
  dsimp only at h
  split at h
  next hcheck =>
    obtain ⟨hshort, hlimit, hlength, hcrc⟩ := hcheck
    obtain ⟨kind, tag, a, b, rest, rfl⟩ : ∃ kind tag a b rest, bytes = kind :: tag :: a :: b :: rest := by
      rcases bytes with _ | ⟨kind, _ | ⟨tag, _ | ⟨a, _ | ⟨b, rest⟩⟩⟩⟩
      all_goals simp at hshort ⊢
    obtain rfl := Option.some.inj h
    generalize hp : halfAt (kind :: tag :: a :: b :: rest) 2 = p at *
    have hrest : rest.length = p + 4 := by
      simp only [List.length_cons] at hlength
      omega
    have hpayload : (rest.take p).length = p := by rw [List.length_take]; omega
    have htail : (rest.drop p).length = 4 := by rw [List.length_drop]; omega
    refine ⟨hpayload.le.trans hlimit, ?_⟩
    have hsplit : kind :: tag :: a :: b :: rest = (kind :: tag :: a :: b :: rest.take p) ++ rest.drop p := by simp
    have hbody : (kind :: tag :: a :: b :: rest.take p).length = 4 + p := by
      simp only [List.length_cons, hpayload]
      omega
    have henc : enc16 p = [a, b] := by rw [← hp]; exact enc16_bytes a b
    rw [hsplit, List.take_left' hbody, wordAt_append_right _ _ hbody] at hcrc
    obtain ⟨c0, c1, c2, c3, hc⟩ : ∃ c0 c1 c2 c3, rest.drop p = [c0, c1, c2, c3] := by
      rcases hd : rest.drop p with _ | ⟨c0, _ | ⟨c1, _ | ⟨c2, _ | ⟨c3, _ | ⟨c4, l⟩⟩⟩⟩⟩
      all_goals simp [hd] at htail ⊢
    show kind :: tag :: a :: b :: rest = frameBytes kind tag (rest.take p)
    unfold frameBytes
    dsimp only
    rw [hpayload, henc, hsplit, hc]
    show _ = (kind :: tag :: a :: b :: rest.take p) ++ encWord (crc32 (kind :: tag :: a :: b :: rest.take p))
    rw [hcrc, hc, encWord_wordAt]
  · exact absurd h nofun

end Sys2Proof.Machine

/-! PROOFS. The payloads of the messages field by field (R78, R156, R157, R168, sections 9.6 and 9.8). -/

namespace Sys2Proof.Machine

/-! ### SWEEP RESULT and RECORD HEADER -/

theorem byteAt_of_bool {p : List Byte} {i : Nat} {b : Bool} (h : p.getD i 0 = BitVec.ofNat 8 (if b then 1 else 0)) :
    byteAt p i = if b then 1 else 0 :=
  byteAt_of h (by split <;> omega)

/-- A set in one byte of a payload. -/
theorem getLsbD_of_bitSet {p : List Byte} {n : Nat} {l : List Bool} (h : p.getD n 0 = BitVec.ofNat 8 (bitSet l))
    (hl : l.length ≤ 8) (i : Nat) : (p.getD n 0).getLsbD i = l.getD i false := by
  rw [h, bitSet_getLsbD hl]

theorem sweepResult_fields (r : SweepResult) :
    r.payload.length = 27 ∧ wordAt r.payload 0 = r.number ∧ byteAt r.payload 4 = r.fleet ∧
      wordAt r.payload 5 = r.vp ∧ wordAt r.payload 9 = r.t0 ∧ byteAt r.payload 13 = r.slot := by
  unfold SweepResult.payload
  simp only [FailSet.byte, encBool, encWord, enc32, enc16, enc8, List.cons_append, List.nil_append]
  exact ⟨rfl, wordAt_of rfl rfl rfl rfl, byteAt_of rfl (Fin.isLt _ |>.trans (by decide)), wordAt_of rfl rfl rfl rfl, wordAt_of rfl rfl rfl rfl,
    byteAt_of rfl (Fin.isLt _ |>.trans (by decide))⟩

theorem sweepResult_codes (r : SweepResult) :
    byteAt r.payload 14 = r.outcome.number ∧ byteAt r.payload 15 = r.stage.number ∧
      byteAt r.payload 16 = (if r.dataComplete then 1 else 0) ∧ byteAt r.payload 17 = r.qc.number := by
  unfold SweepResult.payload
  simp only [FailSet.byte, encBool, encWord, enc32, enc16, enc8, List.cons_append, List.nil_append]
  exact ⟨byteAt_of rfl (by cases r.outcome <;> decide), byteAt_of rfl (by cases r.stage <;> simp [Stage.number]),
    byteAt_of_bool rfl, byteAt_of rfl (by cases r.qc <;> decide)⟩

theorem sweepResult_failSet (r : SweepResult) (i : Nat) : (r.payload.getD 18 0).getLsbD i =
    [r.failSet.missing, r.failSet.phasePeak, r.failSet.phaseMean, r.failSet.distortion, r.failSet.force].getD i false :=
  getLsbD_of_bitSet (p := r.payload) rfl (by simp) i

/-- The counts of a job, 0 without one. -/
theorem sweepResult_counts (r : SweepResult) {c : JobCounts}
    (hc : r.counts.getD { edited := 0, inactive := 0, saturated := 0 } = c) (hedited : c.edited < 65536)
    (hinactive : c.inactive < 65536) :
    halfAt r.payload 19 = c.edited ∧ halfAt r.payload 21 = c.inactive ∧
      wordAt r.payload 23 = BitVec.ofNat 32 c.saturated := by
  subst hc
  unfold SweepResult.payload
  simp only [FailSet.byte, encBool, encWord, enc32, enc16, enc8, List.cons_append, List.nil_append]
  exact ⟨halfAt_of rfl rfl hedited, halfAt_of rfl rfl hinactive, wordAt_of_enc32 rfl rfl rfl rfl⟩

theorem recordHeader_words (h : RecordHeader) :
    h.payload.length = 41 ∧ wordAt h.payload 0 = h.vp ∧ wordAt h.payload 8 = h.serial ∧
      wordAt h.payload 12 = h.qcRejected ∧ wordAt h.payload 16 = h.dropped ∧ wordAt h.payload 20 = h.firstT0.getD 0 ∧
      wordAt h.payload 24 = h.lastT0.getD 0 := by
  unfold RecordHeader.payload
  simp only [encBool, encWord, enc32, enc16, enc8, List.cons_append, List.nil_append]
  exact ⟨rfl, wordAt_of rfl rfl rfl rfl, wordAt_of rfl rfl rfl rfl, wordAt_of rfl rfl rfl rfl, wordAt_of rfl rfl rfl rfl,
    wordAt_of rfl rfl rfl rfl, wordAt_of rfl rfl rfl rfl⟩

theorem recordHeader_codes (h : RecordHeader) :
    byteAt h.payload 4 = h.fleet ∧ byteAt h.payload 5 = (h.cause.map SealCause.number).getD 0 ∧
      byteAt h.payload 28 = (if decide (1 ≤ h.fold) then 1 else 0) ∧ byteAt h.payload 29 = bitSet [h.corrSat] ∧
      byteAt h.payload 34 = h.interval ∧ byteAt h.payload 35 = h.mode.number ∧ byteAt h.payload 37 = h.width.bits := by
  have hcause : (h.cause.map SealCause.number).getD 0 < 256 := by
    rcases h.cause with _ | c
    · exact Nat.zero_lt_succ _
    · cases c <;> decide
  unfold RecordHeader.payload
  simp only [encBool, encWord, enc32, enc16, enc8, List.cons_append, List.nil_append]
  exact ⟨byteAt_of rfl (Fin.isLt _ |>.trans (by decide)), byteAt_of rfl hcause, byteAt_of_bool rfl, byteAt_of rfl (by cases h.corrSat <;> decide),
    byteAt_of rfl (Fin.isLt _ |>.trans (by decide)), byteAt_of rfl (by cases h.mode <;> decide), byteAt_of rfl (by cases h.width <;> decide)⟩

theorem recordHeader_numbers {h : RecordHeader} (hfold : h.fold < 256) (hkept : h.qcKept < 256) (hlisten : h.listen < 65536)
    (hchannels : h.channels < 65536) (hshift : h.shift < 256) (hfirst : h.first < 65536) (hcount : h.count < 256) :
    byteAt h.payload 6 = h.fold ∧ byteAt h.payload 7 = h.qcKept ∧ halfAt h.payload 30 = h.listen ∧
      halfAt h.payload 32 = h.channels ∧ byteAt h.payload 36 = h.shift ∧ halfAt h.payload 38 = h.first ∧
      byteAt h.payload 40 = h.count := by
  unfold RecordHeader.payload
  simp only [encBool, encWord, enc32, enc16, enc8, List.cons_append, List.nil_append]
  exact ⟨byteAt_of rfl hfold, byteAt_of rfl hkept, halfAt_of rfl rfl hlisten, halfAt_of rfl rfl hchannels,
    byteAt_of rfl hshift, halfAt_of rfl rfl hfirst, byteAt_of rfl hcount⟩

/-! ### TRACE -/

/-- The payload of a TRACE before its samples. -/
def TraceMessage.head (t : TraceMessage) : List Byte :=
  enc16 t.channel ++ encWord t.label ++ enc8 t.accepted ++ enc8 t.edited ++ t.causes.byte ++
    enc8 (bitSet [t.isEmpty, t.outSat]) ++ enc32 t.weightSum ++ enc16 t.saturated

theorem TraceMessage.payload_eq (t : TraceMessage) : t.payload = t.head ++ t.samples.flatMap (encSample t.width) := rfl

@[simp] theorem TraceMessage.head_length (t : TraceMessage) : t.head.length = 16 := by
  simp [TraceMessage.head, EditSet.byte]

theorem encSample_length (w : SampleWidth) (v : Int) : (encSample w v).length = w.bits / 8 := by
  cases w <;> simp [encSample, SampleWidth.bits]

/-- The k-th of pieces of one length stands k lengths in. -/
theorem getD_flatMap {α : Type} {f : α → List Byte} {n : Nat} (hf : ∀ a, (f a).length = n) {l : List α} {k : Nat} {v : α}
    (hv : l[k]? = some v) {i : Nat} (hi : i < n) : (l.flatMap f).getD (n * k + i) 0 = (f v).getD i 0 := by
  induction l generalizing k with
  | nil => simp at hv
  | cons a l ih =>
    rw [List.flatMap_cons]
    cases k with
    | zero =>
      obtain rfl : a = v := by simpa using hv
      rw [Nat.mul_zero, Nat.zero_add, List.getD_append _ _ _ _ (by rw [hf]; exact hi)]
    | succ k =>
      have hplace : n * (k + 1) + i = (f a).length + (n * k + i) := by rw [hf, Nat.mul_succ]; omega
      rw [hplace, List.getD_append_right _ _ _ _ (Nat.le_add_right _ _), Nat.add_sub_cancel_left]
      exact ih (by simpa using hv)

/-- A sample's bytes in the payload of its TRACE. -/
theorem TraceMessage.getD_sample (t : TraceMessage) {k : Nat} {v : Int} (hv : t.samples[k]? = some v) {i : Nat}
    (hi : i < t.width.bits / 8) :
    t.payload.getD (16 + (t.width.bits / 8 * k + i)) 0 = (encSample t.width v).getD i 0 := by
  rw [t.payload_eq, List.getD_append_right _ _ _ _ (t.head_length.le.trans (Nat.le_add_right 16 _)), t.head_length,
    Nat.add_sub_cancel_left]
  exact getD_flatMap (encSample_length t.width) hv hi

theorem trace_fields (t : TraceMessage) :
    t.payload.length = 16 + t.samples.length * (t.width.bits / 8) ∧ wordAt t.payload 2 = t.label ∧
      wordAt t.payload 10 = BitVec.ofNat 32 t.weightSum := by
  refine ⟨?_, wordAt_of ?_ ?_ ?_ ?_, wordAt_of_enc32 ?_ ?_ ?_ ?_⟩
  · rw [t.payload_eq, List.length_append, List.length_flatMap, t.head_length]
    simp [encSample_length]
  all_goals
    unfold TraceMessage.payload
    simp [EditSet.byte, encWord, enc32, enc16, enc8]

theorem trace_numbers {t : TraceMessage} (hchannel : t.channel < 65536) (haccepted : t.accepted < 256)
    (hedited : t.edited < 256) (hsaturated : t.saturated < 65536) :
    halfAt t.payload 0 = t.channel ∧ byteAt t.payload 6 = t.accepted ∧ byteAt t.payload 7 = t.edited ∧
      halfAt t.payload 14 = t.saturated := by
  unfold TraceMessage.payload
  simp only [EditSet.byte, encWord, enc32, enc16, enc8, List.cons_append, List.nil_append]
  exact ⟨halfAt_of rfl rfl hchannel, byteAt_of rfl haccepted, byteAt_of rfl hedited, halfAt_of rfl rfl hsaturated⟩

theorem trace_sets (t : TraceMessage) (i : Nat) :
    (t.payload.getD 8 0).getLsbD i = [t.causes.dead, t.causes.clip, t.causes.burst].getD i false ∧
      (t.payload.getD 9 0).getLsbD i = [t.isEmpty, t.outSat].getD i false := by
  unfold TraceMessage.payload
  simp only [EditSet.byte, encWord, enc32, enc16, enc8, List.cons_append, List.nil_append]
  exact ⟨getLsbD_of_bitSet rfl (by simp) i, getLsbD_of_bitSet rfl (by simp) i⟩

/-- A value in the range of n bits is read back from its two's complement. -/
theorem toInt_ofNat_ofInt {n m : Nat} (hn : 0 < n) {v : Int} (hlo : -(2 ^ (n - 1)) ≤ v) (hhi : v ≤ 2 ^ (n - 1) - 1)
    (hm : m = (BitVec.ofInt n v).toNat) : (BitVec.ofNat n m).toInt = v := by
  rw [hm, BitVec.ofNat_toNat, BitVec.setWidth_eq, BitVec.toInt_ofInt_eq_self hn hlo (by omega)]

theorem trace_sample16 {t : TraceMessage} (hw : t.width = .w16) {k : Nat} {v : Int} (hv : t.samples[k]? = some v)
    (hlo : -(2 ^ 15) ≤ v) (hhi : v ≤ 2 ^ 15 - 1) : (BitVec.ofNat 16 (halfAt t.payload (16 + 2 * k))).toInt = v := by
  have hbyte (i : Nat) (hi : i < 2) : t.payload.getD (16 + 2 * k + i) 0 = (encSample .w16 v).getD i 0 := by
    have := t.getD_sample hv (i := i) (by rw [hw]; exact hi)
    rwa [hw, ← Nat.add_assoc] at this
  exact toInt_ofNat_ofInt (by decide) hlo hhi
    (halfAt_of (hbyte 0 (by decide)) (hbyte 1 (by decide)) (BitVec.ofInt 16 v).isLt)

theorem trace_sample24 {t : TraceMessage} (hw : t.width = .w24) {k : Nat} {v : Int} (hv : t.samples[k]? = some v)
    (hlo : -(2 ^ 23) ≤ v) (hhi : v ≤ 2 ^ 23 - 1) :
    (BitVec.ofNat 24 (byteAt t.payload (16 + 3 * k) * 65536 + halfAt t.payload (17 + 3 * k))).toInt = v := by
  have hbyte (i : Nat) (hi : i < 3) : t.payload.getD (16 + 3 * k + i) 0 = (encSample .w24 v).getD i 0 := by
    have := t.getD_sample hv (i := i) (by rw [hw]; exact hi)
    rwa [hw, ← Nat.add_assoc] at this
  refine toInt_ofNat_ofInt (by decide) hlo hhi ?_
  have hlt := (BitVec.ofInt 24 v).isLt
  have hhigh : byteAt t.payload (16 + 3 * k) = (BitVec.ofInt 24 v).toNat / 65536 :=
    byteAt_of (hbyte 0 (by decide)) (by omega)
  have hlow : halfAt t.payload (16 + 3 * k + 1) = (BitVec.ofInt 24 v).toNat % 65536 :=
    halfAt_of (hbyte 1 (by decide)) (hbyte 2 (by decide)) (by omega)
  rw [hhigh, show 17 + 3 * k = 16 + 3 * k + 1 by omega, hlow]
  omega

theorem trace_sample32 {t : TraceMessage} (hw : t.width = .w32) {k : Nat} {v : Int} (hv : t.samples[k]? = some v)
    (hlo : -(2 ^ 31) ≤ v) (hhi : v ≤ 2 ^ 31 - 1) : (wordAt t.payload (16 + 4 * k)).toInt = v := by
  have hbyte (i : Nat) (hi : i < 4) : t.payload.getD (16 + 4 * k + i) 0 = (encSample .w32 v).getD i 0 := by
    have := t.getD_sample hv (i := i) (by rw [hw]; exact hi)
    rwa [hw, ← Nat.add_assoc] at this
  have hword : wordAt t.payload (16 + 4 * k) = BitVec.ofInt 32 v :=
    wordAt_of (hbyte 0 (by decide)) (hbyte 1 (by decide)) (hbyte 2 (by decide)) (hbyte 3 (by decide))
  rw [hword]
  exact BitVec.toInt_ofInt_eq_self (by decide) hlo (by omega)

/-- Settles O17: frames read back, and the payloads field by field. -/
theorem framesRoundTrip : Obligations.FramesRoundTrip := by
  refine ⟨fun kind tag payload h => readFrame_frameBytes kind tag h, fun bytes f h => readFrame_some h,
    fun tag kind code fields => rfl, fun tag causes => rfl, fun tag r => ?_, fun tag h => ?_, fun tag m => ?_⟩
  · obtain ⟨hlength, hnumber, hfleet, hvp, ht0, hslot⟩ := sweepResult_fields r
    obtain ⟨houtcome, hstage, hdata, hqc⟩ := sweepResult_codes r
    refine ⟨r.payload, rfl, hlength, hnumber, hfleet, hvp, ht0, hslot, houtcome.trans (by cases r.outcome <;> rfl),
      hstage.trans (by cases r.stage <;> rfl), hdata, hqc.trans (by cases r.qc <;> rfl), sweepResult_failSet r,
      fun hc => sweepResult_counts r (c := { edited := 0, inactive := 0, saturated := 0 }) (by rw [hc]; rfl) (by decide)
        (by decide),
      fun c hc hedited hinactive => sweepResult_counts r (by rw [hc]; rfl) hedited hinactive⟩
  · intro hfold hkept hlisten hchannels hshift hfirst hcount
    obtain ⟨hlength, hvp, hserial, hrejected, hdropped, hfirstT0, hlastT0⟩ := recordHeader_words h
    obtain ⟨hfleet, hcause, hpresent, hsat, hinterval, hmode, hwidth⟩ := recordHeader_codes h
    obtain ⟨h6, h7, h30, h32, h36, h38, h40⟩ :=
      recordHeader_numbers hfold hkept hlisten hchannels hshift hfirst hcount
    refine ⟨h.payload, rfl, hlength, hvp, hfleet, fun c hc => ?_, h6, h7, hserial, hrejected, hdropped, hfirstT0, hlastT0,
      by simpa using hpresent, hsat.trans (by cases h.corrSat <;> rfl), h30, h32, hinterval, hmode, h36,
      hwidth, h38, h40⟩
    rw [hcause, hc]
    cases c <;> rfl
  · intro hchannel haccepted hedited _ hsaturated
    obtain ⟨hlength, hlabel, hweight⟩ := trace_fields m
    obtain ⟨h0, h6, h7, h14⟩ := trace_numbers hchannel haccepted hedited hsaturated
    refine ⟨m.payload, rfl, hlength, h0, hlabel, h6, h7, fun i => (trace_sets m i).1, fun i => (trace_sets m i).2, hweight,
      h14, fun k v hv hlo hhi => ⟨fun hw => ?_, fun hw => ?_, fun hw => ?_⟩⟩ <;> rw [hw] at hlo hhi
    · exact trace_sample16 hw hv hlo hhi
    · exact trace_sample24 hw hv hlo hhi
    · exact trace_sample32 hw hv hlo hhi

end Sys2Proof.Machine

/-! PROOFS. Links and alerts (chapters 9 and 10): what a raised set and the two alert requests do, what a received frame
does, and what the link refuses. -/

namespace Sys2Proof.Machine

/-! ### The Alert Unit's tests (R179, R181) -/

theorem eq_zero_iff (x : CauseSet) : x = 0 ↔ ¬ ∃ i, i < 8 ∧ x.getLsbD i = true := by
  constructor
  · rintro rfl ⟨i, -, hi⟩
    simp at hi
  · intro h
    refine BitVec.eq_of_getLsbD_eq fun i hi => ?_
    have : x.getLsbD i ≠ true := fun hx => h ⟨i, hi, hx⟩
    simpa using this

/-- A cause of the set is neither pending nor masked (R179). -/
def CauseSet.Sends (c pending mask : CauseSet) : Prop :=
  ∃ i, i < 8 ∧ c.getLsbD i = true ∧ pending.getLsbD i = false ∧ mask.getLsbD i = false

theorem not_sends_iff (c pending mask : CauseSet) :
    c &&& ~~~pending &&& ~~~mask = 0 ↔ ¬ CauseSet.Sends c pending mask := by
  rw [eq_zero_iff]
  refine not_congr (exists_congr fun i => and_congr_right fun hi => ?_)
  simp [hi, and_assoc]

/-- A pending cause was masked and is not any more (R181). -/
def CauseSet.Unmasks (pending old new : CauseSet) : Prop :=
  ∃ i, i < 8 ∧ pending.getLsbD i = true ∧ old.getLsbD i = true ∧ new.getLsbD i = false

theorem not_unmasks_iff (pending old new : CauseSet) :
    pending &&& old &&& ~~~new = 0 ↔ ¬ CauseSet.Unmasks pending old new := by
  rw [eq_zero_iff]
  refine not_congr (exists_congr fun i => and_congr_right fun hi => ?_)
  simp [hi, and_assoc]

/-! ### ALERTs (R171, R173, R180) -/

theorem State.sendAlert_of_down {s : State} (h : s.record.up = false) :
    s.sendAlert = { s with record := { s.record with sequence := s.record.sequence + 1 } } := by
  simp [State.sendAlert, h, PartnerLink.push]

theorem State.sendAlert_of_free {s : State} (h : s.record.up = true) (hr : s.reading = none) :
    s.sendAlert = { s with record := { s.record with
      sequence := s.record.sequence + 1
      output := s.record.output ++ [.alert s.record.sequence s.alerts.pending] } } := by
  simp [State.sendAlert, h, hr, PartnerLink.push]

theorem State.sendAlert_of_reading {s : State} (h : s.record.up = true) (hr : s.reading ≠ none) :
    s.sendAlert = { s with
      record := { s.record with sequence := s.record.sequence + 1 }
      heldAlerts := s.heldAlerts ++ [.alert s.record.sequence s.alerts.pending] } := by
  obtain ⟨r, hr⟩ := Option.ne_none_iff_exists'.1 hr
  simp [State.sendAlert, h, hr]

theorem State.raise_of_quiet {s : State} {c : CauseSet} (h : ¬ CauseSet.Sends c s.alerts.pending s.alerts.mask) :
    s.raise c = { s with alerts := { s.alerts with pending := s.alerts.pending ||| c } } :=
  if_pos ((not_sends_iff _ _ _).2 h)

theorem State.raise_of_sends {s : State} {c : CauseSet} (h : CauseSet.Sends c s.alerts.pending s.alerts.mask) :
    s.raise c = { s with alerts := { s.alerts with pending := s.alerts.pending ||| c } }.sendAlert :=
  if_neg fun hzero => (not_sends_iff _ _ _).1 hzero h

theorem exec_alertMask {s : State} {tag : Byte} {mask : CauseSet} {rest : List Frame}
    (h : RecordRequest s 42 tag [mask] rest) : exec .alertMask s =
      .next (serveAlertMask { kind := 42, tag := tag, payload := [mask] } (s.takeRecord rest)) :=
  congrArg Host.Outcome.next (request_record h 42 (fixedLength 1) serveAlertMask)

theorem exec_alertAck {s : State} {tag : Byte} {causes : CauseSet} {rest : List Frame}
    (h : RecordRequest s 43 tag [causes] rest) : exec .alertAck s =
      .next (serveAlertAck { kind := 43, tag := tag, payload := [causes] } (s.takeRecord rest)) :=
  congrArg Host.Outcome.next (request_record h 43 (fixedLength 1) serveAlertAck)

/-- The REPLY of ALERT MASK, and an ALERT behind it where a pending cause is unmasked. -/
theorem serveAlertMask_eq {s : State} (hup : s.record.up = true) (tag : Byte) (mask : CauseSet) (rest : List Frame) :
    serveAlertMask { kind := 42, tag := tag, payload := [mask] } (s.takeRecord rest) =
      let answered := State.answerRecord { s with alerts := { s.alerts with mask := mask } } rest
        (.reply tag 42 .done [mask, s.alerts.pending])
      if s.alerts.pending &&& s.alerts.mask &&& ~~~mask = 0 then answered else answered.sendAlert := by
  have hreply := State.takeRecord_pushReply (s := { s with alerts := { s.alerts with mask := mask } }) hup rest
    { kind := 42, tag := tag, payload := [mask] } .done [mask, s.alerts.pending]
  exact congrArg (fun u : State => if s.alerts.pending &&& s.alerts.mask &&& ~~~mask = 0 then u else u.sendAlert) hreply

/-- Settles O31: the raised set by its test, the link and the read in hand; the two requests by their replies. -/
theorem alertDecisions : Obligations.AlertDecisions := by
  refine ⟨fun s c => ⟨State.raise_of_quiet, fun hsends hdown => ?_, fun hsends hup hfree => ?_,
    fun hsends hup hreading => ?_⟩, fun s tag rest mask hreq => ⟨fun hquiet => ?_, fun hunmasks => ?_⟩,
    fun s tag rest causes hreq => ?_⟩
  · exact (State.raise_of_sends hsends).trans (State.sendAlert_of_down hdown)
  · exact (State.raise_of_sends hsends).trans (State.sendAlert_of_free hup hfree)
  · exact (State.raise_of_sends hsends).trans (State.sendAlert_of_reading hup hreading)
  · rw [exec_alertMask hreq, serveAlertMask_eq hreq.1]
    exact congrArg Host.Outcome.next (if_pos ((not_unmasks_iff _ _ _).2 hquiet))
  · rw [exec_alertMask hreq, serveAlertMask_eq hreq.1]
    refine congrArg Host.Outcome.next ((if_neg fun h => (not_unmasks_iff _ _ _).1 h hunmasks).trans ?_)
    exact State.sendAlert_of_free hreq.1 hreq.2.1
  · rw [exec_alertAck hreq]
    exact congrArg Host.Outcome.next (State.takeRecord_pushReply
      (s := { s with alerts := { s.alerts with pending := s.alerts.pending &&& ~~~causes } }) hreq.1 rest _ _ _)

/-! ### Frame receipt (R4, R162, R164, R165, R175) -/

theorem exec_frameReceipt_up {link : LinkId} {s : State} (h : s.linkIsUp link = true) (bytes : List Byte) :
    exec (.frameReceipt link bytes) s = .next (receiveFrame link bytes s) := by
  show Host.Outcome.next (if s.linkIsUp link then receiveFrame link bytes s else s) = _
  rw [if_pos h]

theorem receiveFrame_none {link : LinkId} {bytes : List Byte} (h : checkFrame link bytes = none) (s : State) :
    receiveFrame link bytes s = crcDiscard link s := by
  rw [receiveFrame, h]

theorem receiveFrame_some {link : LinkId} {bytes : List Byte} {f : Frame} (h : checkFrame link bytes = some f)
    (s : State) : receiveFrame link bytes s = bufferFrame link f s := by
  rw [receiveFrame, h]

theorem crcDiscard_eq (link : LinkId) (s : State) : crcDiscard link s = State.raise
    (match link with
    | .spread => { s with spread := { s.spread with crcDiscards := satAdd32 s.spread.crcDiscards 1 } }
    | .source => { s with source := { s.source with crcDiscards := satAdd32 s.source.crcDiscards 1 } }
    | .record => { s with record := { s.record with crcDiscards := satAdd32 s.record.crcDiscards 1 } }) 0x10#8 := by
  cases link <;> exact Event.finish_change_addCause _ _ _

theorem overflow_eq (link : LinkId) (s : State) : overflow link s = State.raise
    (match link with
    | .spread => { s with spread := { s.spread with overflows := satAdd32 s.spread.overflows 1 } }
    | .source => { s with source := { s.source with overflows := satAdd32 s.source.overflows 1 } }
    | .record => { s with record := { s.record with overflows := satAdd32 s.record.overflows 1 } }) 0x10#8 := by
  cases link <;> exact Event.finish_change_addCause _ _ _

/-- The Spread Link's check lets ROW BLOCKs and STREAM STARTs of four bytes pass (R175). -/
theorem readSpreadFrame_some {bytes : List Byte} {f : Frame} (h : readFrame bytes = some f)
    (hkind : f.kind = 1 ∨ f.kind = 2 ∧ f.payload.length = 4) : readSpreadFrame bytes = some f := by
  rw [readSpreadFrame, h]
  exact if_pos hkind

theorem readSpreadFrame_none {bytes : List Byte}
    (h : ∀ f, readFrame bytes = some f → f.kind ≠ 1 ∧ (f.kind = 2 → f.payload.length ≠ 4)) :
    readSpreadFrame bytes = none := by
  rw [readSpreadFrame]
  cases hf : readFrame bytes with
  | none => rfl
  | some f =>
    obtain ⟨hone, htwo⟩ := h f hf
    exact if_neg (by rintro (h | ⟨h, hlength⟩); exacts [hone h, htwo h hlength])

/-- Settles O33: each link by its check and the places of its buffer. -/
theorem framesAreCheckedAndBuffered : Obligations.FramesAreCheckedAndBuffered := by
  have hdiscard {link : LinkId} {s : State} {bytes : List Byte} (hup : s.linkIsUp link = true)
      (h : checkFrame link bytes = none) := by
    have := exec_frameReceipt_up hup bytes
    rwa [receiveFrame_none h, crcDiscard_eq] at this
  have hbuffer {link : LinkId} {s : State} {bytes : List Byte} {f : Frame} (hup : s.linkIsUp link = true)
      (h : checkFrame link bytes = some f) := by
    have := exec_frameReceipt_up hup bytes
    rwa [receiveFrame_some h] at this
  refine ⟨fun s bytes hup => ⟨hdiscard (link := .source) hup, fun f hf => ?_⟩,
    fun s bytes hup => ⟨hdiscard (link := .record) hup, fun f hf => ?_⟩, fun s bytes hup =>
      ⟨fun hnone => hdiscard (link := .spread) hup (readSpreadFrame_none hnone), fun f hf hkind => ?_⟩,
    fun c => satAdd32_toNat c 1⟩
  · rw [hbuffer (link := .source) hup hf]
    exact ⟨fun hfree => congrArg _ (if_pos hfree), fun hfull => congrArg _ ((if_neg (by
      show ¬ s.source.input.length < 4; omega)).trans (overflow_eq .source s))⟩
  · rw [hbuffer (link := .record) hup hf]
    exact ⟨fun hfree => congrArg _ (if_pos hfree), fun hfull => congrArg _ ((if_neg (by
      show ¬ s.record.input.length < 4; omega)).trans (overflow_eq .record s))⟩
  · rw [hbuffer (link := .spread) hup (readSpreadFrame_some hf hkind)]
    exact ⟨fun hfree => congrArg _ (if_pos hfree), fun hfull => congrArg _ ((if_neg (by
      show ¬ s.spread.input.length < 16; omega)).trans (overflow_eq .spread s))⟩

/-! ### Refusals by the link (R167) -/

theorem SourceRequest.takeRequest {s : State} {kind tag : Byte} {payload : List Byte} {rest : List Frame}
    (h : SourceRequest s kind tag payload rest) :
    s.takeRequest .source = some ({ kind := kind, tag := tag, payload := payload }, s.takeSource rest) := by
  simp [State.takeRequest, h.2, State.takeSource]

theorem RecordRequest.takeRequest {s : State} {kind tag : Byte} {payload : List Byte} {rest : List Frame}
    (h : RecordRequest s kind tag payload rest) :
    s.takeRequest .record = some ({ kind := kind, tag := tag, payload := payload }, s.takeRecord rest) := by
  simp [State.takeRequest, h.2.1, h.2.2, State.takeRecord]

theorem refused_source {s : State} {kind tag : Byte} {payload : List Byte} {rest : List Frame}
    (h : SourceRequest s kind tag payload rest) {k : Nat} (hk : kind.toNat = k) {fits : List Byte → Bool}
    (hfits : fits payload = false) (serve : Frame → State → State) :
    request .source k fits serve s = s.answerSource rest (.reply tag kind .badLength []) := by
  rw [request_source h, if_pos hk, if_neg (by simp [hfits])]

theorem refused_record {s : State} {kind tag : Byte} {payload : List Byte} {rest : List Frame}
    (h : RecordRequest s kind tag payload rest) {k : Nat} (hk : kind.toNat = k) {fits : List Byte → Bool}
    (hfits : fits payload = false) (serve : Frame → State → State) :
    request .record k fits serve s = s.answerRecord rest (.reply tag kind .badLength []) := by
  rw [request_record h, if_pos hk, if_neg (by simp [hfits])]

theorem not_mem_requestKinds {link : LinkId} {n : Nat}
    (h : match link with | .spread => True | .source => n < 16 ∨ 24 < n | .record => n < 32 ∨ 46 < n) :
    (requestKinds link).contains n = false := by
  cases link with
  | spread => rfl
  | source => simp [requestKinds]; omega
  | record => simp [requestKinds]; omega

theorem fixedLength_eq_false {n : Nat} {p : List Byte} (h : p.length ≠ n) : fixedLength n p = false :=
  decide_eq_false h

/-- Settles O34: the kind, then the length that the kind fixes. -/
theorem linkRefusals : Obligations.LinkRefusals := by
  refine ⟨fun s kind tag payload rest => ⟨fun hreq hkind => ?_, fun hreq hkind => ?_⟩,
    fun s tag payload rest c kind length hc hreq hlength => ?_,
    fun s tag payload rest c kind length hc hreq hlength => ?_, fun s tag payload rest hreq hlength => ?_⟩
  · show execUnknownKind .source s = _
    rw [execUnknownKind, hreq.takeRequest]
    dsimp only
    rw [not_mem_requestKinds (link := .source) hkind]
    exact congrArg Host.Outcome.next (State.takeSource_pushReply hreq.1 rest _ _ _)
  · show execUnknownKind .record s = _
    rw [execUnknownKind, hreq.takeRequest]
    dsimp only
    rw [not_mem_requestKinds (link := .record) hkind]
    exact congrArg Host.Outcome.next (State.takeRecord_pushReply hreq.1 rest _ _ _)
  · simp only [List.mem_cons, Prod.mk.injEq, List.not_mem_nil, or_false] at hc
    rcases hc with ⟨rfl, rfl, rfl⟩ | ⟨rfl, rfl, rfl⟩ | ⟨rfl, rfl, rfl⟩ | ⟨rfl, rfl, rfl⟩ | ⟨rfl, rfl, rfl⟩ |
      ⟨rfl, rfl, rfl⟩ | ⟨rfl, rfl, rfl⟩ | ⟨rfl, rfl, rfl⟩ | ⟨rfl, rfl, rfl⟩
    iterate 7 exact congrArg Host.Outcome.next (refused_source hreq rfl (fixedLength_eq_false hlength) _)
    all_goals exact congrArg Host.Outcome.next (refused_source hreq rfl (decide_eq_false fun h => hlength h.2) _)
  · simp only [List.mem_cons, Prod.mk.injEq, List.not_mem_nil, or_false] at hc
    rcases hc with ⟨rfl, rfl, rfl⟩ | ⟨rfl, rfl, rfl⟩ | ⟨rfl, rfl, rfl⟩ | ⟨rfl, rfl, rfl⟩ | ⟨rfl, rfl, rfl⟩ |
      ⟨rfl, rfl, rfl⟩ | ⟨rfl, rfl, rfl⟩ | ⟨rfl, rfl, rfl⟩ | ⟨rfl, rfl, rfl⟩ | ⟨rfl, rfl, rfl⟩ | ⟨rfl, rfl, rfl⟩ |
      ⟨rfl, rfl, rfl⟩ | ⟨rfl, rfl, rfl⟩ | ⟨rfl, rfl, rfl⟩
    all_goals exact congrArg Host.Outcome.next (refused_record hreq rfl (fixedLength_eq_false hlength) _)
  · exact congrArg Host.Outcome.next (refused_record hreq rfl (decide_eq_false (by omega)) _)

end Sys2Proof.Machine

/-! PROOFS. Loads of pilots (R42 to R44): PILOT OPEN, PART and CLOSE, accepted and refused. -/

namespace Sys2Proof.Machine

/-! ### Requests that are served -/

theorem served_source {s : State} {kind tag : Byte} {payload : List Byte} {rest : List Frame}
    (h : SourceRequest s kind tag payload rest) {k : Nat} (hk : kind.toNat = k) {fits : List Byte → Bool}
    (hfits : fits payload = true) (serve : Frame → State → State) : request .source k fits serve s =
      serve { kind := kind, tag := tag, payload := payload } (s.takeSource rest) := by
  rw [request_source h, if_pos hk, if_pos hfits]
  rfl

theorem served_record {s : State} {kind tag : Byte} {payload : List Byte} {rest : List Frame}
    (h : RecordRequest s kind tag payload rest) {k : Nat} (hk : kind.toNat = k) {fits : List Byte → Bool}
    (hfits : fits payload = true) (serve : Frame → State → State) : request .record k fits serve s =
      serve { kind := kind, tag := tag, payload := payload } (s.takeRecord rest) := by
  rw [request_record h, if_pos hk, if_pos hfits]
  rfl

theorem State.setPilot_self (s : State) (p : Fin Config.pilots) : s.setPilot p s.pilots[p] = s := by
  have : s.pilots.set p s.pilots[p] = s.pilots := Vector.set_getElem_self _
  unfold State.setPilot
  rw [this]

theorem Fin.val_lt_256 {n : Nat} (i : Fin n) (h : n ≤ 256) : i.val < 256 := i.isLt.trans_le h

/-! ### The slot's answers -/

/-- A slot that is not COMMITTING, nor READY with a pin, starts a load. -/
theorem openPilot_done {s : State} {n : Nat} {i : Fin 4} {p : PilotSlot} (hfree : ∀ a b c, p.phase ≠ .committing a b c)
    (hpins : p.phase.isReady = true → p.pins = 0) : openPilot s n i p =
      (.done, { p with phase := .filling n i [] { length := 2000, deadline := s.clock + 2000 } }) := by
  unfold openPilot
  cases hphase : p.phase with
  | committing a b c => exact absurd hphase (hfree a b c)
  | ready => exact if_neg (by rw [hpins (by rw [hphase]; rfl)]; omega)
  | _ => rfl

theorem openPilot_busy {s : State} {n : Nat} {i : Fin 4} {p : PilotSlot} {a : Nat} {b : Fin 4} {c : List (BitVec 16)}
    (h : p.phase = .committing a b c) : openPilot s n i p = (.busy, p) := by
  rw [openPilot, h]

theorem openPilot_pinned {s : State} {n : Nat} {i : Fin 4} {p : PilotSlot} (h : p.phase.isReady = true) (hpins : 1 ≤ p.pins) :
    openPilot s n i p = (.pilotPinned, p) := by
  unfold openPilot
  cases hphase : p.phase with
  | ready => exact if_pos hpins
  | _ => rw [hphase] at h; exact absurd h nofun

theorem storePart_of_filling {s : State} {offset n : Nat} {i : Fin 4} {held part : List (BitVec 16)} {timer : Timer}
    {p : PilotSlot} (h : p.phase = .filling n i held timer) : storePart s offset part p =
      if offset ≠ held.length then (.pilotSequence, p)
      else if n < offset + part.length then (.badLength, p)
      else (.done, { p with phase := .filling n i (held ++ part) { length := 2000, deadline := s.clock + 2000 } }) := by
  rw [storePart, h]
  rfl

theorem storePart_of_other {s : State} {offset : Nat} {part : List (BitVec 16)} {p : PilotSlot}
    (h : ∀ a b c d, p.phase ≠ .filling a b c d) : storePart s offset part p = (.pilotState, p) := by
  unfold storePart
  cases hphase : p.phase with
  | filling a b c d => exact absurd hphase (h a b c d)
  | _ => rfl

theorem closePilot_of_filling {n : Nat} {i : Fin 4} {held : List (BitVec 16)} {timer : Timer} {p : PilotSlot}
    (h : p.phase = .filling n i held timer) : closePilot p =
      if held.length < n then (.pilotIncomplete, p) else (.done, { p with phase := .committing n i held }) := by
  rw [closePilot, h]

theorem closePilot_of_other {p : PilotSlot} (h : ∀ a b c d, p.phase ≠ .filling a b c d) :
    closePilot p = (.pilotState, p) := by
  unfold closePilot
  cases hphase : p.phase with
  | filling a b c d => exact absurd hphase (h a b c d)
  | _ => rfl

/-! ### PILOT OPEN (R42) -/

/-- A PILOT OPEN of a slot that exists, with both values in range, is answered by the slot. -/
theorem exec_pilotOpen_of_good {s : State} {p : Fin Config.pilots} {n : Nat} {i : Fin 4} {tag : Byte} {rest : List Frame}
    (h : SourceRequest s 16 tag (enc8 p ++ enc16 n ++ enc8 i) rest) (hlo : 1024 ≤ n) (hhi : n ≤ 16384) :
    exec .pilotOpen s = .next ((s.setPilot p (openPilot s n i s.pilots[p]).2).answerSource rest
      (.reply tag 16 (openPilot s n i s.pilots[p]).1 (enc8 p ++ pilotOpenFields (openPilot s n i s.pilots[p]).2))) := by
  refine congrArg Host.Outcome.next ((served_source h rfl rfl servePilotOpen).trans ?_)
  unfold servePilotOpen
  dsimp only
  rw [halfAt_of (n := n) rfl rfl (by omega), byteAt_of (n := p) rfl (Fin.val_lt_256 p (by decide)), asFin_val,
    byteAt_of (n := i) rfl (Fin.val_lt_256 i (by decide)), asFin_val]
  dsimp only
  rw [if_pos ⟨hlo, hhi⟩]
  exact State.takeSource_pushReply (s := s.setPilot p (openPilot s n i s.pilots[p]).2) h.1 rest _ _ _

theorem exec_pilotOpen_of_bad {s : State} {p : Fin Config.pilots} {n i : Nat} {tag : Byte} {rest : List Frame}
    (h : SourceRequest s 16 tag (enc8 p ++ enc16 n ++ enc8 i) rest) (hn : n < 65536) (hi : i < 256)
    (hbad : n < 1024 ∨ 16384 < n ∨ 3 < i) :
    exec .pilotOpen s =
      .next (s.answerSource rest (.reply tag 16 .badValue (enc8 p ++ pilotOpenFields s.pilots[p]))) := by
  refine congrArg Host.Outcome.next ((served_source h rfl rfl servePilotOpen).trans ?_)
  unfold servePilotOpen
  dsimp only
  rw [halfAt_of (n := n) rfl rfl hn, byteAt_of (n := p) rfl (Fin.val_lt_256 p (by decide)), asFin_val,
    byteAt_of (n := i) rfl hi]
  dsimp only
  have hreply := State.takeSource_pushReply h.1 rest { kind := 16, tag := tag, payload := enc8 p ++ enc16 n ++ enc8 i }
    .badValue (enc8 p ++ pilotOpenFields s.pilots[p])
  by_cases hcode : i < 4
  · rw [asFin_of_lt hcode]
    exact (if_neg (by omega)).trans hreply
  · rw [asFin_of_le (by omega)]
    exact hreply

/-- A slot number above 15: as many free bytes as the rule's fields of the slot (log entry 15). -/
theorem refuseNoPilot_eq {s : State} (hup : s.source.up = true) (rest : List Frame) (kind tag : Byte) {slot : Nat}
    (hslot : slot < 256) (more : List Byte) (n : Nat) :
    refuseNoPilot { kind := kind, tag := tag, payload := enc8 slot ++ more } (s.takeSource rest) n =
      State.answerSource { s with freeCount := s.freeCount + n } rest
        (.reply tag kind .badValue (enc8 slot ++ s.freeBytes n)) := by
  unfold refuseNoPilot
  dsimp only
  rw [byteAt_of (n := slot) rfl hslot, State.takeSource_pushReply hup]
  rfl

theorem freeBytes_length (s : State) (n : Nat) : (s.freeBytes n).length = n := by
  simp [State.freeBytes]

/-! ### PILOT PART (R43) -/

/-- The payload of a PILOT PART. -/
def partPayload (slot offset : Nat) (part : List (BitVec 16)) : List Byte :=
  enc8 slot ++ enc16 offset ++ enc16 part.length ++ part.flatMap fun x => enc16 x.toNat

theorem partPayload_offset (slot : Nat) {offset : Nat} (part : List (BitVec 16)) (h : offset < 65536) :
    halfAt (partPayload slot offset part) 1 = offset :=
  halfAt_of rfl rfl h

theorem partPayload_count (slot offset : Nat) {part : List (BitVec 16)} (h : part.length < 65536) :
    halfAt (partPayload slot offset part) 3 = part.length :=
  halfAt_of rfl rfl h

theorem partPayload_fits (slot offset : Nat) {part : List (BitVec 16)} (h : part.length < 65536) :
    fitsPilotPart (partPayload slot offset part) = true := by
  have hlength : (partPayload slot offset part).length = 5 + 2 * part.length := by
    simp [partPayload, List.length_flatMap]
    omega
  refine decide_eq_true ?_
  rw [partPayload_count slot offset h, hlength]
  omega

theorem readSamples_partPayload (slot offset : Nat) (part : List (BitVec 16)) :
    readSamples part.length (partPayload slot offset part) = part := by
  have hdrop : (partPayload slot offset part).drop 5 = (part.flatMap fun x => enc16 x.toNat) ++ [] :=
    (List.append_nil _).symm
  have hread (x : BitVec 16) : BitVec.ofNat 16 (halfAt (enc16 x.toNat) 0) = x := by
    rw [halfAt_of (n := x.toNat) rfl rfl x.isLt, BitVec.ofNat_toNat, BitVec.setWidth_eq]
  rw [readSamples, hdrop, chunks_flatMap 2 part _ [] fun x _ => enc16_length x.toNat, List.map_map]
  exact (List.map_congr_left fun x _ => hread x).trans (List.map_id _)

/-- A PILOT PART of a slot that exists, with a count in range, is answered by the slot. -/
theorem exec_pilotPart_of_good {s : State} {p : Fin Config.pilots} {offset : Nat} {part : List (BitVec 16)} {tag : Byte}
    {rest : List Frame} (h : SourceRequest s 17 tag (partPayload p offset part) rest) (hoffset : offset < 65536)
    (hlo : 1 ≤ part.length) (hhi : part.length ≤ 512) :
    exec .pilotPart s = .next ((s.setPilot p (storePart s offset part s.pilots[p]).2).answerSource rest
      (.reply tag 17 (storePart s offset part s.pilots[p]).1
        (enc8 p ++ pilotPartFields (storePart s offset part s.pilots[p]).2))) := by
  refine congrArg Host.Outcome.next ((served_source h rfl (partPayload_fits _ _ (by omega)) servePilotPart).trans ?_)
  unfold servePilotPart
  dsimp only
  rw [partPayload_count _ _ (by omega), partPayload_offset _ _ hoffset, readSamples_partPayload,
    show byteAt (partPayload p offset part) 0 = p from byteAt_of rfl (Fin.val_lt_256 p (by decide)), asFin_val]
  dsimp only
  rw [if_pos ⟨hlo, hhi⟩]
  exact State.takeSource_pushReply (s := s.setPilot p (storePart s offset part s.pilots[p]).2) h.1 rest _ _ _

theorem exec_pilotPart_of_bad {s : State} {p : Fin Config.pilots} {offset : Nat} {part : List (BitVec 16)} {tag : Byte}
    {rest : List Frame} (h : SourceRequest s 17 tag (partPayload p offset part) rest) (hlt : part.length < 65536)
    (hbad : part = [] ∨ 512 < part.length) :
    exec .pilotPart s =
      .next (s.answerSource rest (.reply tag 17 .badLength (enc8 p ++ pilotPartFields s.pilots[p]))) := by
  refine congrArg Host.Outcome.next ((served_source h rfl (partPayload_fits _ _ hlt) servePilotPart).trans ?_)
  unfold servePilotPart
  dsimp only
  have hrange : ¬ (1 ≤ part.length ∧ part.length ≤ 512) := by
    rcases hbad with rfl | hbad
    · simp
    · omega
  rw [partPayload_count _ _ hlt,
    show byteAt (partPayload p offset part) 0 = p from byteAt_of rfl (Fin.val_lt_256 p (by decide)), asFin_val]
  dsimp only
  rw [if_neg hrange]
  exact State.takeSource_pushReply h.1 rest _ _ _

/-! ### PILOT CLOSE (R44) -/

theorem exec_pilotClose {s : State} {p : Fin Config.pilots} {tag : Byte} {rest : List Frame}
    (h : SourceRequest s 18 tag (enc8 p) rest) :
    exec .pilotClose s = .next ((s.setPilot p (closePilot s.pilots[p]).2).answerSource rest
      (.reply tag 18 (closePilot s.pilots[p]).1
        (if (closePilot s.pilots[p]).1 = .done then enc8 p ++ enc8 (closePilot s.pilots[p]).2.phase.number else []))) := by
  refine congrArg Host.Outcome.next ((served_source h rfl rfl servePilotClose).trans ?_)
  unfold servePilotClose
  dsimp only
  rw [byteAt_of (n := p) rfl (Fin.val_lt_256 p (by decide)), asFin_val]
  exact State.takeSource_pushReply (s := s.setPilot p (closePilot s.pilots[p]).2) h.1 rest _ _ _

/-- Settles O41: each request by the slot's answer. -/
theorem pilotLoading : Obligations.PilotLoading := by
  refine ⟨fun s p n i tag rest hreq hlo hhi hfree hpins => ?_,
    fun s p n i held part timer tag rest hreq hphase hn hlo hhi hfits => ?_,
    fun s p n i held timer tag rest hreq hphase hfull => ?_⟩
  · rw [exec_pilotOpen_of_good hreq hlo hhi, openPilot_done hfree hpins]
    rfl
  · rw [exec_pilotPart_of_good hreq (by omega) hlo hhi, storePart_of_filling hphase, if_neg (not_not.2 rfl),
      if_neg (by omega)]
    have hcount : pilotPartFields { s.pilots[p] with
        phase := .filling n i (held ++ part) { length := 2000, deadline := s.clock + 2000 } } =
          [1] ++ (1 :: enc16 (held.length + part.length)) := by
      rw [← List.length_append]; rfl
    dsimp only
    rw [hcount, ← List.append_assoc]
  · rw [exec_pilotClose hreq, closePilot_of_filling hphase, if_neg (by omega)]
    rfl

/-- Settles O42: the slot number, the values in range, then the slot's answer. -/
theorem pilotLoadRefusals : Obligations.PilotLoadRefusals := by
  refine ⟨fun s slot tag rest hslot hbyte => ⟨fun more hmore hreq => ?_, fun offset part hpart hreq => ?_, fun hreq => ?_⟩,
    fun s p n i tag rest hreq hn hi => ⟨exec_pilotOpen_of_bad hreq hn hi, fun hlo hhi hcode => ?_⟩,
    fun s p offset part tag rest hreq hoffset hpart => ⟨exec_pilotPart_of_bad hreq hpart, fun hlo hhi => ?_⟩,
    fun s p tag rest hreq => ⟨fun hother => ?_, fun n i held timer hphase hfew => ?_⟩⟩
  · refine ⟨_, freeBytes_length s 9, congrArg Host.Outcome.next ((served_source hreq rfl ?_ servePilotOpen).trans ?_)⟩
    · exact decide_eq_true (by rw [List.length_append, hmore]; rfl)
    · unfold servePilotOpen
      dsimp only
      rw [byteAt_of (n := slot) rfl hbyte, asFin_of_le hslot]
      exact refuseNoPilot_eq hreq.1 rest 16 tag hbyte more 9
  · refine ⟨_, freeBytes_length s 4,
      congrArg Host.Outcome.next ((served_source hreq rfl (partPayload_fits _ _ hpart) servePilotPart).trans ?_)⟩
    unfold servePilotPart
    dsimp only
    rw [byteAt_of (n := slot) rfl hbyte, asFin_of_le hslot]
    simp only [List.append_assoc]
    exact refuseNoPilot_eq hreq.1 rest 17 tag hbyte _ 4
  · refine congrArg Host.Outcome.next ((served_source hreq rfl rfl servePilotClose).trans ?_)
    unfold servePilotClose
    dsimp only
    rw [byteAt_of (n := slot) rfl hbyte, asFin_of_le hslot]
    exact State.takeSource_pushReply hreq.1 rest _ _ _
  · have hexec := exec_pilotOpen_of_good (i := ⟨i, by omega⟩) hreq hlo hhi
    refine ⟨fun ⟨a, b, c, hphase⟩ => ?_, fun hready hpins => ?_⟩
    · rwa [openPilot_busy hphase, State.setPilot_self] at hexec
    · rwa [openPilot_pinned hready hpins, State.setPilot_self] at hexec
  · have hexec := exec_pilotPart_of_good hreq hoffset hlo hhi
    refine ⟨fun hother => ?_, fun n i held timer hphase => ⟨fun hne => ?_, fun heq hpast => ?_⟩⟩
    · rwa [storePart_of_other hother, State.setPilot_self] at hexec
    · rwa [storePart_of_filling hphase, if_pos hne, State.setPilot_self] at hexec
    · rwa [storePart_of_filling hphase, if_neg (not_not.2 heq), if_pos hpast, State.setPilot_self] at hexec
  · rw [exec_pilotClose hreq, closePilot_of_other hother, State.setPilot_self]
    rfl
  · rw [exec_pilotClose hreq, closePilot_of_filling hphase, if_pos hfew, State.setPilot_self]
    rfl

end Sys2Proof.Machine

/-! PROOFS. CHANNEL SET and CHANNEL READ (R26 to R28). -/

namespace Sys2Proof.Machine

/-! ### The records of a CHANNEL SET -/

/-- The nine bytes of a channel record. -/
def ChannelRecord.bytes (r : ChannelRecord) : List Byte :=
  enc8 r.active ++ encWord r.label ++ enc16 r.deadThreshold ++ enc16 r.noiseThreshold

theorem readChannelRecord_bytes {r : ChannelRecord} (hactive : r.active < 256) (hdead : r.deadThreshold < 65536)
    (hnoise : r.noiseThreshold < 65536) : readChannelRecord r.bytes = r := by
  have h0 : byteAt r.bytes 0 = r.active := byteAt_of rfl hactive
  have h1 : wordAt r.bytes 1 = r.label := wordAt_of rfl rfl rfl rfl
  have h5 : halfAt r.bytes 5 = r.deadThreshold := halfAt_of rfl rfl hdead
  have h7 : halfAt r.bytes 7 = r.noiseThreshold := halfAt_of rfl rfl hnoise
  rw [readChannelRecord, h0, h1, h5, h7]

/-- The payload of a CHANNEL SET. -/
def channelSetPayload (first : Nat) (records : List ChannelRecord) : List Byte :=
  enc16 first ++ enc16 records.length ++ records.flatMap ChannelRecord.bytes

theorem channelSetPayload_length (first : Nat) (records : List ChannelRecord) :
    (channelSetPayload first records).length = 4 + 9 * records.length := by
  simp [channelSetPayload, List.length_flatMap, ChannelRecord.bytes]
  omega

theorem channelSetPayload_records (first : Nat) {records : List ChannelRecord}
    (h : ∀ r ∈ records, r.active < 256 ∧ r.deadThreshold < 65536 ∧ r.noiseThreshold < 65536) :
    (chunks 9 records.length ((channelSetPayload first records).drop 4)).map readChannelRecord = records := by
  have hdrop : (channelSetPayload first records).drop 4 = records.flatMap ChannelRecord.bytes ++ [] :=
    (List.append_nil _).symm
  rw [hdrop, chunks_flatMap 9 records _ [] fun r _ => rfl, List.map_map]
  refine (List.map_congr_left fun r hr => ?_).trans (List.map_id _)
  obtain ⟨hactive, hdead, hnoise⟩ := h r hr
  exact readChannelRecord_bytes hactive hdead hnoise

/-- CHANNEL SET on its records: out of range, or the entries written (R26). -/
theorem exec_channelSet {s : State} {tag : Byte} {first : Nat} {records : List ChannelRecord} {rest : List Frame}
    (h : RecordRequest s 33 tag (channelSetPayload first records) rest) (hfirst : first < 65536)
    (hcount : records.length < 65536)
    (hrecords : ∀ r ∈ records, r.active < 256 ∧ r.deadThreshold < 65536 ∧ r.noiseThreshold < 65536) :
    exec .channelSet s = .next
      (if 1023 < first ∨ records.length < 1 ∨ 256 < records.length then
        s.answerRecord rest (.reply tag 33 .badValue [])
      else if records.any (fun r => decide (1 < r.active)) then s.answerRecord rest (.reply tag 33 .badValue [])
      else
        State.answerRecord { s with
            monitor := { s.monitor with table := writeChannels s.monitor.position first records s.monitor.table } } rest
          (.reply tag 33 .done (enc16 first ++ enc16 (clampRange first records.length)))) := by
  have hlength := channelSetPayload_length first records
  refine congrArg Host.Outcome.next
    ((served_record h rfl (decide_eq_true (by rw [hlength]; omega)) serveChannelSet).trans ?_)
  unfold serveChannelSet
  dsimp only
  rw [show halfAt (channelSetPayload first records) 0 = first from halfAt_of rfl rfl hfirst,
    show halfAt (channelSetPayload first records) 2 = records.length from halfAt_of rfl rfl hcount,
    channelSetPayload_records first hrecords, if_neg (not_not.2 hlength)]
  split
  · exact State.takeRecord_pushReply h.1 rest _ _ _
  · split
    · exact State.takeRecord_pushReply h.1 rest _ _ _
    · exact State.takeRecord_pushReply (s := { s with
        monitor := { s.monitor with table := writeChannels s.monitor.position first records s.monitor.table } }) h.1
        rest _ _ _

/-- A written entry by its old and its new active flag (R27). -/
theorem writeChannel_fields (position : Nat) (old : Channel) (r : ChannelRecord) :
    let new := writeChannel position old r
    new.label = r.label ∧ new.deadThreshold = min r.deadThreshold 32767 ∧
      new.noiseThreshold = min r.noiseThreshold 32767 ∧ (new.active = true ↔ r.active = 1) ∧
      new.lastLevel = old.lastLevel ∧ new.latched = old.latched ∧
      (old.active = new.active → new.intervalSum = old.intervalSum ∧ new.partialMark = old.partialMark ∧
        new.monitor = old.monitor ∧ new.lowRun = old.lowRun) ∧
      (old.active = false → new.active = true → new.intervalSum = 0 ∧
        (new.partialMark = true ↔ position ≠ 0) ∧ new.monitor = old.monitor ∧ new.lowRun = old.lowRun) ∧
      (old.active = true → new.active = false → new.intervalSum = 0 ∧ new.partialMark = false ∧
        new.monitor = .normal ∧ new.lowRun = 0) := by
  have hclamp (v : Nat) : clamp 0 32767 v = min v 32767 := by rw [clamp_eq 0 32767 v (by omega)]; omega
  unfold writeChannel
  simp only [hclamp]
  by_cases hnew : r.active = 1 <;> cases old.active <;> simp [hnew]

/-! ### CHANNEL READ (R28) -/

theorem channelList_eq (first : Nat) (l : List Channel) : channelList first l =
    (List.range l.length).flatMap fun i => channelFields (first + i) (l.getD i Channel.reset) := by
  induction l generalizing first with
  | nil => rfl
  | cons c l ih =>
    rw [channelList, ih, List.length_cons, List.range_succ_eq_map, List.flatMap_cons, List.flatMap_map]
    simp [Nat.add_comm, Nat.add_left_comm]

/-- The records of a range of the table. -/
theorem channelList_range (s : State) {first n : Nat} (h : first + n ≤ 1024) :
    channelList first ((s.monitor.table.toList.drop first).take n) =
      (List.range n).flatMap fun i => channelFields (first + i) (s.monitor.table.toList.getD (first + i) Channel.reset) := by
  have hsize : Config.channels = 1024 := rfl
  have hlength : ((s.monitor.table.toList.drop first).take n).length = n := by
    rw [List.length_take, List.length_drop, Vector.length_toList]
    omega
  rw [channelList_eq, hlength]
  refine List.flatMap_congr fun i hi => ?_
  have hi : i < n := List.mem_range.1 hi
  congr 1
  simp only [List.getD_eq_getElem?_getD, List.getElem?_take, hi, if_true, List.getElem?_drop]

theorem exec_channelRead {s : State} {tag : Byte} {first count : Nat} {rest : List Frame}
    (h : RecordRequest s 34 tag (enc16 first ++ enc16 count) rest) (hfirst : first < 65536) (hcount : count < 65536) :
    exec .channelRead s = .next
      (if 1023 < first ∨ count < 1 ∨ 256 < count then s.answerRecord rest (.reply tag 34 .badValue [])
      else
        let n := clampRange first count
        State.answerRecord { s with
            monitor := { s.monitor with table := clearLatches first n s.monitor.table } } rest
          (.reply tag 34 .done (enc16 first ++ enc16 n ++
            channelList first ((s.monitor.table.toList.drop first).take n)))) := by
  refine congrArg Host.Outcome.next ((served_record h rfl rfl serveChannelRead).trans ?_)
  unfold serveChannelRead
  dsimp only
  rw [show halfAt (enc16 first ++ enc16 count) 0 = first from halfAt_of rfl rfl hfirst,
    show halfAt (enc16 first ++ enc16 count) 2 = count from halfAt_of rfl rfl hcount]
  split
  · exact State.takeRecord_pushReply h.1 rest _ _ _
  · exact State.takeRecord_pushReply (s := { s with
      monitor := { s.monitor with table := clearLatches first (clampRange first count) s.monitor.table } }) h.1 rest _ _ _

/-- Settles O40: the range and the active flags decide; then entry by entry. -/
theorem channelRequests : Obligations.ChannelRequests := by
  have hsize : Config.channels = 1024 := rfl
  refine ⟨fun s tag first records rest hreq hfirst hcount hrecords => ?_, fun s tag payload rest hreq hlong hlength => ?_,
    fun s tag first count rest hreq hfirst hcount => ?_⟩
  · intro n bad
    have hexec := exec_channelSet hreq hfirst hcount hrecords
    have hany : records.any (fun r => decide (1 < r.active)) = true ↔ ∃ r ∈ records, 1 < r.active := by simp
    have hempty : records = [] ↔ records.length < 1 := by rw [← List.length_eq_zero_iff]; omega
    refine ⟨fun hbad => ?_, fun hgood => ⟨writeChannels s.monitor.position first records s.monitor.table, ?_,
      fun i => ⟨fun hout => ?_, fun r hi hr => ?_⟩⟩⟩
    · rw [hexec]
      rcases hbad with h | h | h | h
      · rw [if_pos (.inl h)]
      · rw [if_pos (.inr (.inl (hempty.1 h)))]
      · rw [if_pos (.inr (.inr h))]
      · rw [if_pos (hany.2 h), ite_self]
    · refine hexec.trans (congrArg Host.Outcome.next ((if_neg ?_).trans (if_neg ?_)))
      · rintro (h | h | h)
        · exact hgood (.inl h)
        · exact hgood (.inr (.inl (hempty.2 h)))
        · exact hgood (.inr (.inr (.inl h)))
      · exact fun h => hgood (.inr (.inr (.inr (hany.1 h))))
    · rw [writeChannels_getElem]
      have hlt := i.isLt
      split
      next hle =>
        rw [List.getElem?_eq_none (by omega)]
      · rfl
    · have hnew : (writeChannels s.monitor.position first records s.monitor.table)[i] =
          writeChannel s.monitor.position s.monitor.table[i] r := by
        rw [writeChannels_getElem, if_pos hi, hr]
      intro old new
      have hfields := writeChannel_fields s.monitor.position s.monitor.table[i] r
      rw [← hnew] at hfields
      exact hfields
  · refine congrArg Host.Outcome.next ((served_record hreq rfl (decide_eq_true hlong) serveChannelSet).trans ?_)
    unfold serveChannelSet
    dsimp only
    rw [if_pos hlength]
    exact State.takeRecord_pushReply hreq.1 rest _ _ _
  · intro n
    have hexec := exec_channelRead hreq hfirst hcount
    refine ⟨fun hbad => hexec.trans (congrArg Host.Outcome.next (if_pos hbad)), fun hle hlo hhi =>
      ⟨clearLatches first (clampRange first count) s.monitor.table, ?_, fun i => ?_⟩⟩
    · refine hexec.trans (congrArg Host.Outcome.next ((if_neg (by omega)).trans ?_))
      dsimp only
      rw [channelList_range s (by unfold clampRange; omega)]
      rfl
    · rw [clearLatches_getElem]
      exact ⟨fun hlo hhi => if_pos ⟨hlo, hhi⟩, fun hout => if_neg hout⟩

end Sys2Proof.Machine

/-! PROOFS. Seals and releases (sections 7.5 to 7.9): VP END, the linger's expiry, STACK SEAL and STACK RELEASE. -/

namespace Sys2Proof.Machine

/-! ### Seals under a taken request -/

theorem State.sealedAs_takeSource (s : State) (rest : List Frame) (k : Fin Config.stackSlots) (cause : SealCause)
    (st : Stack) : (s.takeSource rest).sealedAs k cause st = (s.sealedAs k cause st).takeSource rest := by
  unfold State.sealedAs
  dsimp only
  split <;> rfl

theorem State.sealedAs_takeRecord (s : State) (rest : List Frame) (k : Fin Config.stackSlots) (cause : SealCause)
    (st : Stack) : (s.takeRecord rest).sealedAs k cause st = (s.sealedAs k cause st).takeRecord rest := by
  unfold State.sealedAs
  dsimp only
  split <;> rfl

/-- A seal touches neither link. -/
theorem State.sealedAs_links (s : State) (k : Fin Config.stackSlots) (cause : SealCause) (st : Stack) :
    (s.sealedAs k cause st).source = s.source ∧ (s.sealedAs k cause st).record = s.record := by
  unfold State.sealedAs
  dsimp only
  split <;> exact ⟨rfl, rfl⟩

/-- The stack of a sealed slot. -/
theorem State.sealedAs_slot (s : State) (k : Fin Config.stackSlots) (cause : SealCause) (st : Stack) :
    (s.sealedAs k cause st).slots[k] = some { st with
      phase := if 1 ≤ st.pending then .draining cause else .sealed cause s.sealOrders } := by
  unfold State.sealedAs
  dsimp only
  split
  · exact (vector_set_getElem s.slots k k _).trans (if_pos rfl)
  · exact (vector_set_getElem s.slots k k _).trans (if_pos rfl)

/-- A seal as an event that ends without a REPLY. -/
theorem sealSlot_finish (k : Fin Config.stackSlots) (cause : SealCause) (st : Stack) (s : State) :
    (sealSlot k cause st (Event.start s)).finish = (s.sealedAs k cause st).raise (sealRaises st) := by
  rw [sealSlot_eq]
  simp [Event.finish]

/-- A seal as an event that ends with a REPLY in front of its ALERT. -/
theorem sealSlot_reply (k : Fin Config.stackSlots) (cause : SealCause) (st : Stack) (s : State) (link : LinkId)
    (f : Frame) (code : Code) (fields : List Byte) :
    (sealSlot k cause st (Event.start s)).reply link f code fields =
      ((s.sealedAs k cause st).pushReply link f code fields).raise (sealRaises st) := by
  rw [sealSlot_eq]
  simp [Event.reply, Event.finish]

/-! ### VP END (R130) -/

/-- A VP END with its two fields. -/
def vpEndFrame (tag : Byte) (fleet : Nat) (vp : Word32) : Frame :=
  { kind := 24, tag := tag, payload := enc8 fleet ++ encWord vp }

theorem exec_vpEnd {s : State} {tag : Byte} {fleet : Nat} {vp : Word32} {rest : List Frame}
    (h : SourceRequest s 24 tag (enc8 fleet ++ encWord vp) rest) :
    exec .vpEnd s = .next (serveVpEnd (vpEndFrame tag fleet vp) (s.takeSource rest)) :=
  congrArg Host.Outcome.next (served_source h rfl rfl serveVpEnd)

/-- A VP END of a fleet that exists, by its open slot. -/
theorem serveVpEnd_of_fleet (s : State) (tag : Byte) (fl : Fin Config.fleets) (vp : Word32) :
    serveVpEnd (vpEndFrame tag fl vp) s =
      match s.openStack fl with
      | none => s.pushReply .source (vpEndFrame tag fl vp) .vpUnknown (openSlotFields none)
      | some (k, st) =>
        if st.vp = vp then
          if (s.fleets[fl]).params.linger = 0 then
            let e := sealSlot k .lingerExpired st (Event.start s)
            e.reply .source (vpEndFrame tag fl vp) .done (vpEndFields k true e.st.slots[k])
          else
            let s1 := lingerSlot k st (s.fleets[fl]).params.linger s
            s1.pushReply .source (vpEndFrame tag fl vp) .done (vpEndFields k false s1.slots[k])
        else s.pushReply .source (vpEndFrame tag fl vp) .vpUnknown (openSlotFields (some (k, st))) := by
  have hfleet : byteAt (vpEndFrame tag fl vp).payload 0 = fl := byteAt_of rfl (Fin.val_lt_256 fl (by decide))
  have hvp : wordAt (vpEndFrame tag fl vp).payload 1 = vp := wordAt_of rfl rfl rfl rfl
  unfold serveVpEnd
  rw [hfleet, hvp, asFin_val] <;> rfl

/-- The reply to a VP END that sealed the slot. -/
theorem vpEndFields_sealed (s : State) (k : Fin Config.stackSlots) (cause : SealCause) (st : Stack) :
    vpEndFields k true (s.sealedAs k cause st).slots[k] =
      enc8 k ++ (if 1 ≤ st.pending then [3] else [4]) ++ enc16 st.tag.toNat ++ enc8 st.fold ++ enc8 st.pending ++ [1] := by
  rw [State.sealedAs_slot]
  split <;> rfl

/-- Settles O52: the fleet number, the open slot, its VP ID, and the linger time. -/
theorem vpEndsStartTheLinger : Obligations.VpEndsStartTheLinger := by
  refine ⟨fun s fleet vp tag rest hfleet hbyte hreq => ?_, fun s fl vp tag rest hreq => ?_⟩
  · rw [exec_vpEnd hreq]
    unfold serveVpEnd
    rw [show byteAt (vpEndFrame tag fleet vp).payload 0 = fleet from byteAt_of rfl hbyte, asFin_of_le hfleet]
    exact congrArg Host.Outcome.next (State.takeSource_pushReply hreq.1 rest _ _ _)
  · rw [exec_vpEnd hreq, serveVpEnd_of_fleet]
    refine ⟨fun hnone => ?_, fun k st hopen hslot _ => ?_⟩
    · rw [State.openStack_eq_none (s := s.takeSource rest) hnone]
      exact congrArg Host.Outcome.next (State.takeSource_pushReply hreq.1 rest _ _ _)
    · rw [State.openStack_eq_some (s := s.takeSource rest) hopen hslot]
      dsimp only
      refine ⟨fun hne => ?_, fun heq hms => ?_, fun heq hms => ?_⟩
      · rw [if_neg hne]
        exact congrArg Host.Outcome.next (State.takeSource_pushReply hreq.1 rest _ _ _)
      · rw [if_pos heq, if_neg (show ¬ ((s.takeSource rest).fleets[fl]).params.linger = 0 from by
          show ¬ (s.fleets[fl]).params.linger = 0; omega)]
        have hlinger : (lingerSlot k st ((s.takeSource rest).fleets[fl]).params.linger (s.takeSource rest)).slots[k] =
            some { st with
              phase := .linger { length := (s.fleets[fl]).params.linger
                                 deadline := s.clock + (s.fleets[fl]).params.linger }
              tag := st.tag + 1 } := (vector_set_getElem s.slots k k _).trans (if_pos rfl)
        rw [hlinger]
        exact congrArg Host.Outcome.next (State.takeSource_pushReply
          (s := lingerSlot k st (s.fleets[fl]).params.linger s) hreq.1 rest _ _ _)
      · rw [if_pos heq, if_pos (show ((s.takeSource rest).fleets[fl]).params.linger = 0 from hms), sealSlot_reply,
          sealSlot_eq]
        dsimp only
        rw [Event.start_st, State.sealedAs_takeSource]
        have hfields := vpEndFields_sealed s k .lingerExpired st
        have hreply := State.takeSource_pushReply (s := s.sealedAs k .lingerExpired st)
          (by rw [(State.sealedAs_links _ _ _ _).1]; exact hreq.1) rest (vpEndFrame tag fl vp) .done
          (vpEndFields k true (s.sealedAs k .lingerExpired st).slots[k])
        rw [hfields] at hreply
        rw [show ((s.sealedAs k .lingerExpired st).takeSource rest).slots = (s.sealedAs k .lingerExpired st).slots from rfl,
          hfields]
        exact congrArg (fun u => Host.Outcome.next (State.raise u (sealRaises st))) hreply

/-! ### Linger expiry (R131) -/

theorem exec_lingerExpiry {s : State} {k : Fin Config.stackSlots} {st : Stack} {timer : Timer}
    (hst : s.slots[k] = some st) (hphase : st.phase = .linger timer) :
    exec (.lingerExpiry k) s = .next (lingerExpiry k (passTo timer.deadline s)) := by
  show execLingerExpiry k s = _
  have htimer : s.slots[k].bind Stack.lingerTimer = some timer := by rw [hst]; simp [Stack.lingerTimer, hphase]
  unfold execLingerExpiry
  rw [asFin_val]
  dsimp only
  rw [htimer]

theorem lingerExpiry_of_linger {s : State} {k : Fin Config.stackSlots} {st : Stack} {timer : Timer}
    (hst : s.slots[k] = some st) (hphase : st.phase = .linger timer) :
    lingerExpiry k s = (s.sealedAs k .lingerExpired st).raise (sealRaises st) := by
  rw [lingerExpiry, hst]
  dsimp only
  rw [hphase]
  exact sealSlot_finish _ _ _ _

/-! ### STACK SEAL (R136) -/

/-- A STACK SEAL with its fields. -/
def stackSealFrame (tag : Byte) (slot presence carried : Nat) : Frame :=
  { kind := 39, tag := tag, payload := enc8 slot ++ enc8 presence ++ enc16 carried }

theorem exec_stackSeal {s : State} {tag : Byte} {slot presence carried : Nat} {rest : List Frame}
    (h : RecordRequest s 39 tag (enc8 slot ++ enc8 presence ++ enc16 carried) rest) :
    exec .stackSeal s = .next (serveStackSeal (stackSealFrame tag slot presence carried) (s.takeRecord rest)) :=
  congrArg Host.Outcome.next (served_record h rfl rfl serveStackSeal)

/-- A STACK SEAL of a slot that exists. -/
theorem serveStackSeal_of_slot (s : State) (tag : Byte) (k : Fin Config.stackSlots) {presence : Nat}
    (hpresence : presence < 256) (carried : BitVec 16) :
    serveStackSeal (stackSealFrame tag k presence carried.toNat) s =
      if presence ≤ 1 then
        match s.slots[k] with
        | none => s.pushReply .record (stackSealFrame tag k presence carried.toNat) .slotState (stackSealFields k none)
        | some st =>
          if st.isJoinable then
            if presence = 1 ∧ carried.toNat ≠ st.tag.toNat then
              s.pushReply .record (stackSealFrame tag k presence carried.toNat) .tagStale (stackSealFields k (some st))
            else
              let e := sealSlot k .recorderSeal st (Event.start s)
              e.reply .record (stackSealFrame tag k presence carried.toNat) .done (stackSealFields k e.st.slots[k])
          else
            s.pushReply .record (stackSealFrame tag k presence carried.toNat) .slotState (stackSealFields k (some st))
      else s.pushReply .record (stackSealFrame tag k presence carried.toNat) .badValue (stackSealFields k s.slots[k]) := by
  have hslot : byteAt (stackSealFrame tag k presence carried.toNat).payload 0 = k :=
    byteAt_of rfl (Fin.val_lt_256 k (by decide))
  have hbyte : byteAt (stackSealFrame tag k presence carried.toNat).payload 1 = presence := byteAt_of rfl hpresence
  have hhalf : halfAt (stackSealFrame tag k presence carried.toNat).payload 2 = carried.toNat :=
    halfAt_of rfl rfl carried.isLt
  unfold serveStackSeal
  rw [hslot, hbyte, hhalf, asFin_val] <;> rfl

/-- A joinable slot has no seal cause. -/
theorem Stack.sealCause_of_joinable {st : Stack} (h : st.isJoinable = true) : st.sealCause = none := by
  unfold Stack.isJoinable at h
  unfold Stack.sealCause
  split at h <;> simp_all

theorem stackSealFields_sealed (s : State) (k : Fin Config.stackSlots) (cause : SealCause) (st : Stack) :
    stackSealFields k (s.sealedAs k cause st).slots[k] =
      enc8 k ++ enc8 (if 1 ≤ st.pending then 3 else 4) ++ enc8 st.fleet ++ encWord st.vp ++ encWord st.serial ++
        enc16 st.tag.toNat ++ enc8 st.fold ++ enc8 st.pending ++ encOption 1 (some (enc8 cause.number)) := by
  rw [State.sealedAs_slot]
  split <;> rfl

/-! ### STACK RELEASE (R140) -/

theorem exec_stackRelease {s : State} {tag : Byte} {slot : Nat} {rest : List Frame}
    (h : RecordRequest s 41 tag (enc8 slot) rest) :
    exec .stackRelease s = .next (serveStackRelease { kind := 41, tag := tag, payload := enc8 slot }
      (s.takeRecord rest)) :=
  congrArg Host.Outcome.next (served_record h rfl rfl serveStackRelease)

theorem serveStackRelease_of_slot (s : State) (tag : Byte) (k : Fin Config.stackSlots) :
    serveStackRelease { kind := 41, tag := tag, payload := enc8 k } s =
      match s.slots[k] with
      | none => s.pushReply .record { kind := 41, tag := tag, payload := enc8 k } .slotState []
      | some st =>
        if st.isSealed then
          (releaseSlot k s).pushReply .record { kind := 41, tag := tag, payload := enc8 k } .done
            (enc8 k ++ enc8 (slotStateNumber (some st)) ++ encWord st.serial)
        else s.pushReply .record { kind := 41, tag := tag, payload := enc8 k } .slotState [] := by
  have hslot : byteAt (enc8 k) 0 = k := byteAt_of rfl (Fin.val_lt_256 k (by decide))
  unfold serveStackRelease
  dsimp only
  rw [hslot, asFin_val] <;> rfl

theorem releaseSlot_eq {s : State} (h : s.harvestQueue.Nodup) (k : Fin Config.stackSlots) :
    releaseSlot k s = { s.setSlot k none with harvestQueue := s.harvestQueue.filter fun j => decide (j ≠ k) } := by
  rw [releaseSlot, removeFirst_nodup h]

/-- Settles O53: each request by its slot's state, the expiry by the linger timer. -/
theorem sealsAndReleases : Obligations.SealsAndReleases := by
  refine ⟨fun s k st timer hst hphase hcalm => ?_, fun s slot more tag rest hslot hbyte hmore hreq => ?_,
    fun s k presence carried tag rest hreq hpresence => ?_, fun s slot tag rest hslot hbyte hreq => ?_,
    fun s k tag rest hreq hnodup => ?_⟩
  · rw [exec_lingerExpiry hst hphase, passTo_of_calm hcalm]
    exact congrArg Host.Outcome.next
      (lingerExpiry_of_linger (s := { s with clock := max s.clock timer.deadline }) hst hphase)
  · refine ⟨s.freeBytes (freeFieldCount s), s.freeCount + (freeFieldCount s + 1),
      congrArg Host.Outcome.next ((served_record hreq rfl ?_ serveStackSeal).trans ?_)⟩
    · exact decide_eq_true (by rw [List.length_append, hmore]; rfl)
    · unfold serveStackSeal
      dsimp only
      rw [byteAt_of (n := slot) rfl hbyte, asFin_of_le hslot]
      dsimp only
      rw [State.takeRecord_pushReply hreq.1]
      rfl
  · rw [exec_stackSeal hreq, serveStackSeal_of_slot _ _ _ hpresence]
    have hanswer (code : Code) (fields : List Byte) := State.takeRecord_pushReply hreq.1 rest
      (stackSealFrame tag k presence carried.toNat) code fields
    refine ⟨fun hnone => ?_, fun st hst => ?_⟩
    · rw [show (s.takeRecord rest).slots[k] = none from hnone]
      dsimp only
      rw [hanswer, hanswer]
      split <;> rfl
    · rw [show (s.takeRecord rest).slots[k] = some st from hst]
      dsimp only
      refine ⟨fun hlarge => ?_, fun hsmall hother => ?_, fun hjoin hone hne => ?_, fun hjoin hcarried => ?_⟩
      · rw [if_neg (by omega)]
        exact congrArg Host.Outcome.next (hanswer _ _)
      · rw [if_pos hsmall, if_neg (by simp [hother])]
        exact congrArg Host.Outcome.next (hanswer _ _)
      · rw [if_pos (by omega), if_pos hjoin, if_pos ⟨hone, fun h => hne (BitVec.eq_of_toNat_eq h)⟩, hanswer]
        rw [← Stack.sealCause_of_joinable hjoin]
        rfl
      · have htag : ¬ (presence = 1 ∧ carried.toNat ≠ st.tag.toNat) := by
          rintro ⟨hone, hne⟩
          rcases hcarried with h | ⟨-, h⟩
          · omega
          · exact hne (congrArg BitVec.toNat h)
        rw [if_pos (by omega), if_pos hjoin, if_neg htag, sealSlot_reply, sealSlot_eq]
        dsimp only
        rw [Event.start_st, State.sealedAs_takeRecord]
        have hreply := State.takeRecord_pushReply (s := s.sealedAs k .recorderSeal st)
          (by rw [(State.sealedAs_links _ _ _ _).2]; exact hreq.1) rest
          (stackSealFrame tag k presence carried.toNat) .done
          (stackSealFields k (s.sealedAs k .recorderSeal st).slots[k])
        rw [stackSealFields_sealed] at hreply
        rw [show ((s.sealedAs k .recorderSeal st).takeRecord rest).slots = (s.sealedAs k .recorderSeal st).slots from rfl,
          stackSealFields_sealed]
        exact congrArg (fun u => Host.Outcome.next (State.raise u (sealRaises st))) hreply
  · rw [exec_stackRelease hreq]
    unfold serveStackRelease
    dsimp only
    rw [byteAt_of (n := slot) rfl hbyte, asFin_of_le hslot]
    exact congrArg Host.Outcome.next (State.takeRecord_pushReply hreq.1 rest _ _ _)
  · rw [exec_stackRelease hreq, serveStackRelease_of_slot]
    refine ⟨fun hnone => ?_, fun st hst => ⟨fun hother => ?_, fun hsealed => ?_⟩⟩
    · rw [show (s.takeRecord rest).slots[k] = none from hnone]
      exact congrArg Host.Outcome.next (State.takeRecord_pushReply hreq.1 rest _ _ _)
    · rw [show (s.takeRecord rest).slots[k] = some st from hst]
      dsimp only
      rw [if_neg (by simp [hother])]
      exact congrArg Host.Outcome.next (State.takeRecord_pushReply hreq.1 rest _ _ _)
    · rw [show (s.takeRecord rest).slots[k] = some st from hst]
      dsimp only
      rw [if_pos hsealed, releaseSlot_eq (s := s.takeRecord rest) hnodup]
      exact congrArg Host.Outcome.next (State.takeRecord_pushReply (s := { s.setSlot k none with
        harvestQueue := s.harvestQueue.filter fun j => decide (j ≠ k) }) hreq.1 rest _ _ _)

end Sys2Proof.Machine

/-! PROOFS. RECORD READ and the messages of a read (sections 8.1 to 8.3, 8.7). -/

namespace Sys2Proof.Machine

/-! ### RECORD READ (R147 to R149) -/

/-- The payload of a RECORD READ. -/
def recordReadPayload (slot first count mode shift width : Nat) : List Byte :=
  enc8 slot ++ enc16 first ++ enc8 count ++ enc8 mode ++ enc8 shift ++ enc8 width

/-- The values a RECORD READ may carry beside its slot (R147). -/
def ReadFits (first count mode width : Nat) : Prop :=
  mode ≤ 1 ∧ (width = 16 ∨ width = 24 ∨ width = 32) ∧ first ≤ 1023 ∧ 1 ≤ count ∧ count ≤ 64

theorem readMode_of_le {b : Nat} (h : b ≤ 1) : readMode b = some (if b = 0 then .mean else .sum) := by
  unfold readMode
  split
  · rfl
  · rw [if_pos (by omega)]

theorem readMode_of_gt {b : Nat} (h : 1 < b) : readMode b = none := by
  rw [readMode, if_neg (by omega), if_neg (by omega)]

theorem readWidth_of_good {b : Nat} (h : b = 16 ∨ b = 24 ∨ b = 32) :
    readWidth b = some (if b = 16 then .w16 else if b = 24 then .w24 else .w32) := by
  rcases h with rfl | rfl | rfl <;> rfl

theorem readWidth_of_bad {b : Nat} (h : ¬ (b = 16 ∨ b = 24 ∨ b = 32)) : readWidth b = none := by
  rw [readWidth, if_neg (by omega), if_neg (by omega), if_neg (by omega)]

theorem effectiveCount_eq (channels first count : Nat) :
    effectiveCount channels first count = min count (channels - first) := by
  unfold effectiveCount
  split <;> omega

/-- RECORD READ on its fields. -/
theorem serveRecordRead_of_fields (s : State) (tag : Byte) {slot first count mode shift width : Nat}
    (hslot : slot < 256) (hfirst : first < 65536) (hcount : count < 256) (hmode : mode < 256) (hshift : shift < 256)
    (hwidth : width < 256) :
    let f : Frame := { kind := 40, tag := tag, payload := recordReadPayload slot first count mode shift width }
    serveRecordRead f s =
      match asFin Config.stackSlots slot, readMode mode, readWidth width with
      | some k, some m, some w =>
        if 1023 < first ∨ count < 1 ∨ 64 < count then s.pushReply .record f .badValue (enc8 k)
        else
          match s.slots[k] with
          | none => s.pushReply .record f .slotState (slotStateFields none)
          | some st =>
            if st.isSealed then acceptRead f k st first count m shift w s
            else s.pushReply .record f .slotState (slotStateFields (some st))
      | _, _, _ => s.pushReply .record f .badValue (enc8 slot) := by
  intro f
  have h0 : byteAt f.payload 0 = slot := byteAt_of rfl hslot
  have h1 : halfAt f.payload 1 = first := halfAt_of rfl rfl hfirst
  have h3 : byteAt f.payload 3 = count := byteAt_of rfl hcount
  have h4 : byteAt f.payload 4 = mode := byteAt_of rfl hmode
  have h5 : byteAt f.payload 5 = shift := byteAt_of rfl hshift
  have h6 : byteAt f.payload 6 = width := byteAt_of rfl hwidth
  unfold serveRecordRead
  rw [h0, h1, h3, h4, h5, h6] <;> rfl

/-- A RECORD READ with a value out of range (R147). -/
theorem serveRecordRead_of_bad (s : State) (tag : Byte) {slot first count mode shift width : Nat}
    (hslot : slot < 256) (hfirst : first < 65536) (hcount : count < 256) (hmode : mode < 256) (hshift : shift < 256)
    (hwidth : width < 256) (hbad : 11 < slot ∨ ¬ ReadFits first count mode width) :
    let f : Frame := { kind := 40, tag := tag, payload := recordReadPayload slot first count mode shift width }
    serveRecordRead f s = s.pushReply .record f .badValue (enc8 slot) := by
  intro f
  rw [serveRecordRead_of_fields s tag hslot hfirst hcount hmode hshift hwidth]
  unfold ReadFits at hbad
  by_cases hk : slot < 12
  · rw [show asFin Config.stackSlots slot = some ⟨slot, hk⟩ from asFin_of_lt hk]
    by_cases hm : mode ≤ 1
    · rw [readMode_of_le hm]
      by_cases hw : width = 16 ∨ width = 24 ∨ width = 32
      · rw [readWidth_of_good hw]
        exact if_pos (by omega)
      · rw [readWidth_of_bad hw]
    · rw [readMode_of_gt (by omega)]
  · rw [show asFin Config.stackSlots slot = none from asFin_of_le (by show 12 ≤ slot; omega)]

/-- A RECORD READ whose values are in range is answered by its slot. -/
theorem serveRecordRead_of_good (s : State) (tag : Byte) (k : Fin Config.stackSlots) {first count mode shift width : Nat}
    (hfirst : first < 65536) (hcount : count < 256) (hmode : mode < 256) (hshift : shift < 256)
    (hwidth : width < 256) (hfits : ReadFits first count mode width) :
    let f : Frame := { kind := 40, tag := tag, payload := recordReadPayload k first count mode shift width }
    serveRecordRead f s =
      match s.slots[k] with
      | none => s.pushReply .record f .slotState (slotStateFields none)
      | some st =>
        if st.isSealed then
          acceptRead f k st first count (if mode = 0 then .mean else .sum) shift
            (if width = 16 then .w16 else if width = 24 then .w24 else .w32) s
        else s.pushReply .record f .slotState (slotStateFields (some st)) := by
  intro f
  obtain ⟨hm, hw, hrange⟩ := hfits
  rw [serveRecordRead_of_fields s tag (Fin.val_lt_256 k (by decide)) hfirst hcount hmode hshift hwidth, asFin_val,
    readMode_of_le hm, readWidth_of_good hw]
  exact if_neg (by omega)

theorem moveToHarvesting_of_sealed {s : State} (hqueue : s.harvestQueue.Nodup) (k : Fin Config.stackSlots) {st : Stack}
    {cause : SealCause} {order : Word32} (h : st.phase = .sealed cause order) :
    moveToHarvesting k st s = { s.setSlot k (some { st with phase := .harvesting cause }) with
      harvestQueue := s.harvestQueue.filter fun i => decide (i ≠ k) } := by
  unfold moveToHarvesting
  rw [h]
  dsimp only
  rw [removeFirst_nodup hqueue]

theorem moveToHarvesting_of_harvesting (s : State) (k : Fin Config.stackSlots) {st : Stack} {cause : SealCause}
    (h : st.phase = .harvesting cause) : moveToHarvesting k st s = s := by
  unfold moveToHarvesting
  rw [h]

/-- Settles O58: the checks of R147 in order, then the slot by its phase. -/
theorem recordReadsAreAccepted : Obligations.RecordReadsAreAccepted := by
  intro s slot first count mode shift width tag rest hreq hslot hfirst hcount hmode hshift hwidth hqueue fits
  have hserved : exec .recordRead s = .next (serveRecordRead
      { kind := 40, tag := tag, payload := recordReadPayload slot first count mode shift width } (s.takeRecord rest)) :=
    congrArg Host.Outcome.next (served_record hreq rfl rfl serveRecordRead)
  refine ⟨fun hbad => ?_, ?_⟩
  · rw [hserved, serveRecordRead_of_bad _ _ hslot hfirst hcount hmode hshift hwidth hbad]
    exact congrArg Host.Outcome.next (State.takeRecord_pushReply hreq.1 rest _ _ _)
  · rintro k rfl hfits
    rw [hserved, serveRecordRead_of_good _ _ k hfirst hcount hmode hshift hwidth hfits]
    refine ⟨fun hnone => ?_, fun st hst => ⟨fun hother => ?_, ?_⟩⟩
    · rw [show (s.takeRecord rest).slots[k] = none from hnone]
      exact congrArg Host.Outcome.next (State.takeRecord_pushReply hreq.1 rest _ _ _)
    · rw [show (s.takeRecord rest).slots[k] = some st from hst]
      dsimp only
      rw [if_neg (by simp [hother])]
      exact congrArg Host.Outcome.next (State.takeRecord_pushReply hreq.1 rest _ _ _)
    · have hclamp : clamp 0 24 shift = min 24 shift := by rw [clamp_eq 0 24 shift (by omega)]; omega
      rw [show (s.takeRecord rest).slots[k] = some st from hst]
      intro n reading reply
      dsimp only
      refine ⟨fun cause order hphase => ?_, fun cause hphase => ?_⟩
      · rw [if_pos (show st.isSealed = true by simp [Stack.isSealed, hphase])]
        unfold acceptRead
        rw [moveToHarvesting_of_sealed (s := s.takeRecord rest) hqueue k hphase, effectiveCount_eq, hclamp]
        dsimp only
        have hfields : readFields k st (min count (st.channels - first))
            ((s.takeRecord rest).setSlot k (some { st with phase := .harvesting cause })).slots[k] =
              enc8 k ++ encWord st.serial ++ [5] ++ enc8 (min count (st.channels - first)) ++ [1] := by
          rw [show ((s.takeRecord rest).setSlot k (some { st with phase := .harvesting cause })).slots[k] =
            some { st with phase := .harvesting cause } from (vector_set_getElem s.slots k k _).trans (if_pos rfl)]
          simp [readFields, isFirstRead, Stack.sealOrder, hphase, slotStateNumber, StackPhase.number, encBool, enc8]
        rw [hfields]
        have hreply := State.takeRecord_pushReply (s := { s.setSlot k (some { st with phase := .harvesting cause }) with
          harvestQueue := s.harvestQueue.filter fun i => decide (i ≠ k) }) hreq.1 rest
          { kind := 40, tag := tag, payload := recordReadPayload k first count mode shift width } .done
          (enc8 k ++ encWord st.serial ++ [5] ++ enc8 (min count (st.channels - first)) ++ [1])
        exact congrArg (fun u : State => Host.Outcome.next { u with reading := some reading }) hreply
      · rw [if_pos (show st.isSealed = true by simp [Stack.isSealed, hphase])]
        unfold acceptRead
        rw [moveToHarvesting_of_harvesting _ k hphase, effectiveCount_eq, hclamp]
        dsimp only
        have hfields : readFields k st (min count (st.channels - first)) (s.takeRecord rest).slots[k] =
            enc8 k ++ encWord st.serial ++ [5] ++ enc8 (min count (st.channels - first)) ++ [0] := by
          rw [show (s.takeRecord rest).slots[k] = some st from hst]
          simp [readFields, isFirstRead, Stack.sealOrder, hphase, slotStateNumber, StackPhase.number, encBool, enc8]
        rw [hfields]
        have hreply := State.takeRecord_pushReply hreq.1 rest
          { kind := 40, tag := tag, payload := recordReadPayload k first count mode shift width } .done
          (enc8 k ++ encWord st.serial ++ [5] ++ enc8 (min count (st.channels - first)) ++ [0])
        exact congrArg (fun u : State => Host.Outcome.next { u with reading := some reading }) hreply

/-! ### The messages of a read (R149, R150, R156, R157, R171) -/

/-- Held ALERTs join the queue of a link that is up in their order. -/
theorem foldl_push_of_up {l : PartnerLink} (h : l.up = true) (held : List Message) :
    held.foldl PartnerLink.push l = { l with output := l.output ++ held } := by
  induction held generalizing l with
  | nil => simp
  | cons m held ih =>
    rw [List.foldl_cons, PartnerLink.push_of_up h, ih (l := { l with output := l.output ++ [m] }) h,
      List.append_assoc]
    rfl

/-- A message handed on to an empty queue of a link that is up. -/
theorem handMessage_of_sent {s : State} (hup : s.record.up = true) (hsent : s.record.output = []) (r : ReadInHand)
    (m : Message) : handMessage r m s =
      if r.handed + 1 = r.count + 2 then
        { s with record := { s.record with output := m :: s.heldAlerts }, heldAlerts := [], reading := none }
      else
        { s with record := { s.record with output := [m] }, reading := some { r with handed := r.handed + 1 } } := by
  rw [handMessage_up hup, foldl_push_of_up (l := { s.record with output := s.record.output ++ [m] }) hup, hsent]
  rfl

theorem handHeader_of_waiting {s : State} (h : s.record.output ≠ []) : handHeader s = s := by
  rcases handHeader_cases s with heq | ⟨_, _, _, _, _, hsent, _⟩
  · exact heq
  · exact absurd hsent h

theorem handTrace_of_waiting {s : State} (h : s.record.output ≠ []) : handTrace s = s := by
  rcases handTrace_cases s with heq | ⟨_, _, _, _, _, _, hsent, _⟩
  · exact heq
  · exact absurd hsent h

/-- While a read is in hand no Record Link request is taken (R166). -/
theorem takeRequest_of_reading {s : State} (h : s.reading ≠ none) : s.takeRequest .record = none := by
  unfold State.takeRequest
  obtain ⟨r, hr⟩ := Option.ne_none_iff_exists'.1 h
  cases hinput : s.record.input <;> simp [hr]

theorem request_of_reading {s : State} (h : s.reading ≠ none) (kind : Nat) (fits : List Byte → Bool)
    (serve : Frame → State → State) : request .record kind fits serve s = s := by
  rw [request, takeRequest_of_reading h]

/-- Settles O59: what is handed on, in the order of the count. -/
theorem readMessagesLeaveInOrder : Obligations.ReadMessagesLeaveInOrder := by
  refine ⟨fun s hqueue => ⟨congrArg Host.Outcome.next (handHeader_of_waiting hqueue),
    congrArg Host.Outcome.next (handTrace_of_waiting hqueue)⟩, fun s c hreading hc => ?_,
    fun s r st hup hsent hr hst => ?_⟩
  · have hrequest (kind : Nat) (fits : List Byte → Bool) (serve : Frame → State → State) :=
      congrArg (Host.Outcome.next (φ := Fault) (ρ := Refusal)) (request_of_reading hreading kind fits serve)
    simp only [List.mem_cons, List.not_mem_nil, or_false] at hc
    rcases hc with rfl | rfl | rfl | rfl | rfl | rfl | rfl | rfl | rfl | rfl | rfl | rfl | rfl | rfl | rfl | rfl
    case inr.inr.inr.inr.inr.inr.inr.inr.inr.inr.inr.inr.inr.inr.inr =>
      show execUnknownKind .record s = _
      rw [execUnknownKind, takeRequest_of_reading hreading]
    all_goals exact hrequest _ _ _
  · intro handed
    have hhanded (m : Message) : handMessage r m s = handed m := handMessage_of_sent hup hsent r m
    refine ⟨fun hfirst => ?_, fun i c entry hnext hlt hrecord hentry => ?_⟩
    · rw [← hhanded]
      show Host.Outcome.next (handHeader s) = _
      unfold handHeader
      rw [hr]
      dsimp only
      rw [hst]
      dsimp only
      rw [if_pos ⟨hfirst, (PartnerLink.hasSent_iff _).2 hsent⟩]
      rfl
    · rw [← hhanded]
      show Host.Outcome.next (handTrace s) = _
      unfold handTrace
      rw [hr]
      dsimp only
      rw [hst]
      dsimp only
      rw [if_pos ⟨by omega, by omega, (PartnerLink.hasSent_iff _).2 hsent⟩]
      have hplace : r.first + (r.handed - 2) = r.first + i := by omega
      unfold nextTrace
      rw [hplace]
      dsimp only
      rw [List.getD_eq_getElem?_getD, List.getD_eq_getElem?_getD, hrecord, hentry]
      rfl

end Sys2Proof.Machine

/-! PROOFS. FLEET SET (R60) and the requests that read (R62, R142, R143, R184, R185). -/

namespace Sys2Proof.Machine

/-! ### FLEET SET (R60) -/

/-- The fields of a FLEET SET as carried. -/
structure CarriedFleet where
  fleet : Nat
  defined : Nat
  vibrators : Nat
  listen : Nat
  shift : Nat
  weight : Nat
  burst : Nat
  clip : Nat
  peak : Nat
  mean : Nat
  dist : Nat
  force : Nat
  policy : Nat
  action : Nat
  timeout : Nat
  linger : Nat
  slip : Nat

/-- The payload of a FLEET SET. -/
def CarriedFleet.bytes (c : CarriedFleet) : List Byte :=
  enc8 c.fleet ++ enc8 c.defined ++ enc8 c.vibrators ++ enc16 c.listen ++ enc8 c.shift ++ enc8 c.weight ++
    enc32 c.burst ++ enc16 c.clip ++ enc16 c.peak ++ enc16 c.mean ++ enc16 c.dist ++ enc16 c.force ++ enc8 c.policy ++
    enc8 c.action ++ enc16 c.timeout ++ enc16 c.linger ++ enc16 c.slip

/-- Every field fits its bytes. -/
structure CarriedFleet.Fits (c : CarriedFleet) : Prop where
  fleet : c.fleet < 256
  defined : c.defined < 256
  vibrators : c.vibrators < 256
  listen : c.listen < 65536
  shift : c.shift < 256
  weight : c.weight < 256
  burst : c.burst < 4294967296
  clip : c.clip < 65536
  peak : c.peak < 65536
  mean : c.mean < 65536
  dist : c.dist < 65536
  force : c.force < 65536
  policy : c.policy < 256
  action : c.action < 256
  timeout : c.timeout < 65536
  linger : c.linger < 65536
  slip : c.slip < 65536

/-- The two-valued fields carry 0 or 1. -/
def CarriedFleet.Coded (c : CarriedFleet) : Prop := c.defined ≤ 1 ∧ c.weight ≤ 1 ∧ c.policy ≤ 1 ∧ c.action ≤ 1

/-- The record's parameters as FLEET SET stores what it carries (R60). -/
def CarriedFleet.params (c : CarriedFleet) : FleetParams :=
  { vibrators := max 1 (min 6 c.vibrators), listen := max 256 (min 8192 c.listen),
    shift := if c.shift = 255 then none else some (min 40 c.shift),
    weight := if c.weight = 0 then .plain else .diversity, burst := min 1073741824 c.burst,
    clipLimit := min 255 c.clip, peakPhase := min 1800 c.peak, meanPhase := min 1800 c.mean,
    distortion := min 1000 c.dist, minForce := min 200 c.force,
    policy := if c.policy = 0 then .reject else .keep, noReport := if c.action = 0 then .pass else .fail,
    reportTimeout := max 100 (min 30000 c.timeout), linger := min 10000 c.linger, minSlip := min 32767 c.slip }

theorem clamp_zero (hi v : Nat) : clamp 0 hi v = min hi v := by
  rw [clamp_eq 0 hi v (Nat.zero_le _), Nat.zero_max]

section Carried

variable {c : CarriedFleet}

theorem CarriedFleet.bytes_eq (c : CarriedFleet) : c.bytes =
    [.ofNat 8 c.fleet, .ofNat 8 c.defined, .ofNat 8 c.vibrators, .ofNat 8 (c.listen / 256), .ofNat 8 c.listen,
      .ofNat 8 c.shift, .ofNat 8 c.weight, .ofNat 8 (c.burst / 65536 / 256), .ofNat 8 (c.burst / 65536),
      .ofNat 8 (c.burst % 65536 / 256), .ofNat 8 (c.burst % 65536), .ofNat 8 (c.clip / 256), .ofNat 8 c.clip,
      .ofNat 8 (c.peak / 256), .ofNat 8 c.peak, .ofNat 8 (c.mean / 256), .ofNat 8 c.mean, .ofNat 8 (c.dist / 256),
      .ofNat 8 c.dist, .ofNat 8 (c.force / 256), .ofNat 8 c.force, .ofNat 8 c.policy, .ofNat 8 c.action,
      .ofNat 8 (c.timeout / 256), .ofNat 8 c.timeout, .ofNat 8 (c.linger / 256), .ofNat 8 c.linger,
      .ofNat 8 (c.slip / 256), .ofNat 8 c.slip] := by
  unfold CarriedFleet.bytes
  simp only [enc8, enc16, enc32, List.cons_append, List.nil_append]

theorem CarriedFleet.fixedLength_bytes (c : CarriedFleet) : fixedLength 29 c.bytes = true := by
  rw [fixedLength, c.bytes_eq]
  rfl

theorem byteAt_bytes_fleet (h : c.Fits) : byteAt c.bytes 0 = c.fleet := by
  rw [c.bytes_eq]
  exact byteAt_of rfl h.fleet

theorem byteAt_bytes_defined (h : c.Fits) : byteAt c.bytes 1 = c.defined := by
  rw [c.bytes_eq]
  exact byteAt_of rfl h.defined

theorem readFleetParams_bytes (h : c.Fits) : readFleetParams c.bytes = c.params := by
  have h2 : byteAt c.bytes 2 = c.vibrators := by rw [c.bytes_eq]; exact byteAt_of rfl h.vibrators
  have h3 : halfAt c.bytes 3 = c.listen := by rw [c.bytes_eq]; exact halfAt_of rfl rfl h.listen
  have h5 : byteAt c.bytes 5 = c.shift := by rw [c.bytes_eq]; exact byteAt_of rfl h.shift
  have h6 : byteAt c.bytes 6 = c.weight := by rw [c.bytes_eq]; exact byteAt_of rfl h.weight
  have h7 : (wordAt c.bytes 7).toNat = c.burst := by
    rw [c.bytes_eq, wordAt_of_enc32 (n := c.burst) rfl rfl rfl rfl, BitVec.toNat_ofNat, Nat.mod_eq_of_lt h.burst]
  have h11 : halfAt c.bytes 11 = c.clip := by rw [c.bytes_eq]; exact halfAt_of rfl rfl h.clip
  have h13 : halfAt c.bytes 13 = c.peak := by rw [c.bytes_eq]; exact halfAt_of rfl rfl h.peak
  have h15 : halfAt c.bytes 15 = c.mean := by rw [c.bytes_eq]; exact halfAt_of rfl rfl h.mean
  have h17 : halfAt c.bytes 17 = c.dist := by rw [c.bytes_eq]; exact halfAt_of rfl rfl h.dist
  have h19 : halfAt c.bytes 19 = c.force := by rw [c.bytes_eq]; exact halfAt_of rfl rfl h.force
  have h21 : byteAt c.bytes 21 = c.policy := by rw [c.bytes_eq]; exact byteAt_of rfl h.policy
  have h22 : byteAt c.bytes 22 = c.action := by rw [c.bytes_eq]; exact byteAt_of rfl h.action
  have h23 : halfAt c.bytes 23 = c.timeout := by rw [c.bytes_eq]; exact halfAt_of rfl rfl h.timeout
  have h25 : halfAt c.bytes 25 = c.linger := by rw [c.bytes_eq]; exact halfAt_of rfl rfl h.linger
  have h27 : halfAt c.bytes 27 = c.slip := by rw [c.bytes_eq]; exact halfAt_of rfl rfl h.slip
  unfold readFleetParams CarriedFleet.params
  rw [h2, h3, h5, h6, h7, h11, h13, h15, h17, h19, h21, h22, h23, h25, h27]
  simp only [clamp_zero, clamp_eq 1 6 _ (by decide), clamp_eq 256 8192 _ (by decide),
    clamp_eq 100 30000 _ (by decide)]

theorem fleetCodesValid_bytes (h : c.Fits) : fleetCodesValid c.bytes = true ↔ c.Coded := by
  have h6 : byteAt c.bytes 6 = c.weight := by rw [c.bytes_eq]; exact byteAt_of rfl h.weight
  have h21 : byteAt c.bytes 21 = c.policy := by rw [c.bytes_eq]; exact byteAt_of rfl h.policy
  have h22 : byteAt c.bytes 22 = c.action := by rw [c.bytes_eq]; exact byteAt_of rfl h.action
  rw [fleetCodesValid, byteAt_bytes_defined h, h6, h21, h22]
  exact decide_eq_true_iff

end Carried

/-- FLEET SET with the fleet it names, or with none. -/
theorem serveFleetSet_of_carried {c : CarriedFleet} (h : c.Fits) (s : State) (tag : Byte) :
    let f : Frame := { kind := 35, tag := tag, payload := c.bytes }
    (7 < c.fleet ∨ ¬ c.Coded → serveFleetSet f s = s.pushReply .record f .badValue (enc8 c.fleet)) ∧
    ∀ fl : Fin Config.fleets, fl.val = c.fleet → c.Coded →
      let r : Fleet := { s.fleets[fl] with defined := decide (c.defined = 1), params := c.params }
      serveFleetSet f s = (s.setFleet fl r).pushReply .record f .done (fleetSetFields fl r) := by
  intro f
  unfold serveFleetSet
  rw [byteAt_bytes_fleet h, byteAt_bytes_defined h, readFleetParams_bytes h]
  refine ⟨fun hbad => ?_, fun fl hfl hcoded => ?_⟩
  · by_cases hfleet : c.fleet < 8
    · rw [show asFin Config.fleets c.fleet = some ⟨c.fleet, hfleet⟩ from asFin_of_lt hfleet]
      exact if_neg fun hvalid => hbad.elim (by omega) (absurd ((fleetCodesValid_bytes h).1 hvalid))
    · rw [show asFin Config.fleets c.fleet = none from asFin_of_le (by show 8 ≤ c.fleet; omega)]
  · rw [← hfl, asFin_val]
    exact if_pos ((fleetCodesValid_bytes h).2 hcoded)

theorem encBool_code {n : Nat} (h : n ≤ 1) : encBool (decide (n = 1)) = enc8 n := by
  obtain rfl | rfl : n = 0 ∨ n = 1 := by omega
  all_goals rfl

theorem weight_number_code {n : Nat} (h : n ≤ 1) : (if n = 0 then WeightMode.plain else .diversity).number = n := by
  obtain rfl | rfl : n = 0 ∨ n = 1 := by omega
  all_goals rfl

theorem policy_number_code {n : Nat} (h : n ≤ 1) : (if n = 0 then QcPolicy.reject else .keep).number = n := by
  obtain rfl | rfl : n = 0 ∨ n = 1 := by omega
  all_goals rfl

theorem action_number_code {n : Nat} (h : n ≤ 1) : (if n = 0 then NoReport.pass else .fail).number = n := by
  obtain rfl | rfl : n = 0 ∨ n = 1 := by omega
  all_goals rfl

/-- The record as the reply to FLEET SET carries it, at the codes carried. -/
theorem fleetSetFields_carried (fl : Fin Config.fleets) (old : Fleet) {c : CarriedFleet} (hcoded : c.Coded) :
    let q := c.params
    fleetSetFields fl { old with defined := decide (c.defined = 1), params := q } =
      enc8 fl ++ enc8 c.defined ++ enc8 q.vibrators ++ enc16 q.listen ++ enc8 (q.shift.getD 255) ++ enc8 c.weight ++
        enc32 q.burst ++ enc16 q.clipLimit ++ enc16 q.peakPhase ++ enc16 q.meanPhase ++ enc16 q.distortion ++
        enc16 q.minForce ++ enc8 c.policy ++ enc8 c.action ++ enc16 q.reportTimeout ++ enc16 q.linger ++
        enc16 q.minSlip ++ encOption 4 (old.lastT0.map encWord) ++ encOption 1 (old.openSlot.map fun k => enc8 k) := by
  obtain ⟨hd, hw, hp, ha⟩ := hcoded
  intro q
  unfold fleetSetFields fleetParamFields
  dsimp only
  rw [encBool_code hd, show q.weight.number = c.weight from weight_number_code hw,
    show q.policy.number = c.policy from policy_number_code hp,
    show q.noReport.number = c.action from action_number_code ha]
  simp only [List.append_assoc]

/-- A FLEET SET taken (R60). -/
theorem exec_fleetSet {s : State} {tag : Byte} {c : CarriedFleet} {rest : List Frame}
    (hreq : RecordRequest s 35 tag c.bytes rest) (h : c.Fits) :
    (7 < c.fleet ∨ ¬ c.Coded → exec .fleetSet s =
      .next (s.answerRecord rest (.reply tag 35 .badValue (enc8 c.fleet)))) ∧
    ∀ fl : Fin Config.fleets, fl.val = c.fleet → c.Coded →
      let r : Fleet := { s.fleets[fl] with defined := decide (c.defined = 1), params := c.params }
      exec .fleetSet s =
        .next ((s.setFleet fl r).answerRecord rest (.reply tag 35 .done (fleetSetFields fl r))) := by
  have hserved : exec .fleetSet s = .next (serveFleetSet { kind := 35, tag := tag, payload := c.bytes }
      (s.takeRecord rest)) :=
    congrArg Host.Outcome.next (served_record hreq rfl c.fixedLength_bytes serveFleetSet)
  obtain ⟨hrefused, haccepted⟩ := serveFleetSet_of_carried h (s.takeRecord rest) tag
  refine ⟨fun hbad => ?_, fun fl hfl hcoded => ?_⟩
  · rw [hserved, hrefused hbad]
    exact congrArg Host.Outcome.next (State.takeRecord_pushReply hreq.1 rest _ _ _)
  · intro r
    rw [hserved, haccepted fl hfl hcoded]
    exact congrArg Host.Outcome.next (State.takeRecord_pushReply (s := s.setFleet fl r) hreq.1 rest _ _ _)

/-- Settles O56: the payload read back field by field, then each field clamped. -/
theorem fleetSetWritesTheRecord : Obligations.FleetSetWritesTheRecord := by
  intro s fleet defined v listen shift weight burst clip peak mean dist force policy action timeout linger slip tag rest
    hreq hfleet hdefined hv hlisten hshift hweight hburst hclip hpeak hmean hdist hforce hpolicy haction htimeout
    hlinger hslip coded
  let c : CarriedFleet :=
    { fleet := fleet, defined := defined, vibrators := v, listen := listen, shift := shift, weight := weight,
      burst := burst, clip := clip, peak := peak, mean := mean, dist := dist, force := force, policy := policy,
      action := action, timeout := timeout, linger := linger, slip := slip }
  have hbytes : RecordRequest s 35 tag c.bytes rest := hreq
  obtain ⟨hrefused, haccepted⟩ := exec_fleetSet hbytes
    ⟨hfleet, hdefined, hv, hlisten, hshift, hweight, hburst, hclip, hpeak, hmean, hdist, hforce, hpolicy, haction,
      htimeout, hlinger, hslip⟩
  refine ⟨hrefused, fun fl hfl hcoded => ?_⟩
  refine (haccepted fl hfl hcoded).trans ?_
  exact congrArg (fun fields => Host.Outcome.next ((s.setFleet fl _).answerRecord rest (.reply tag 35 .done fields)))
    (fleetSetFields_carried (c := c) fl s.fleets[fl] hcoded)

/-! ### FLEET READ (R62) -/

theorem openSlotFields_eq (o : Option (Fin Config.stackSlots × Stack)) :
    openSlotFields o = encOption 5 (o.map fun x => enc8 x.1 ++ encWord x.2.vp) := by
  cases o <;> rfl

/-! ### STACK STATUS (R143) -/

/-- The record of a channel that a slot does not have. -/
def ChannelStack.absent : ChannelStack :=
  { acc := [], weightSum := 0, accepted := 0, edited := 0, causes := { dead := false, clip := false, burst := false } }

theorem channelStackList_eq (first : Nat) (l : List ChannelStack) : channelStackList first l =
    (List.range l.length).flatMap fun i => channelStackFields (first + i) (l.getD i .absent) := by
  induction l generalizing first with
  | nil => rfl
  | cons r l ih =>
    rw [channelStackList, ih, List.length_cons, List.range_succ_eq_map, List.flatMap_cons, List.flatMap_map]
    simp [Nat.add_comm, Nat.add_left_comm]

/-- The records of a range of channels. -/
theorem channelStackList_range {l : List ChannelStack} {first n : Nat} (h : n ≤ l.length - first) :
    channelStackList first ((l.drop first).take n) =
      (List.range n).flatMap fun i => channelStackFields (first + i) (l.getD (first + i) .absent) := by
  have hlength : ((l.drop first).take n).length = n := by
    rw [List.length_take, List.length_drop]
    omega
  rw [channelStackList_eq, hlength]
  refine List.flatMap_congr fun i hi => ?_
  have hi : i < n := List.mem_range.1 hi
  congr 1
  simp only [List.getD_eq_getElem?_getD, List.getElem?_take, hi, if_true, List.getElem?_drop]

/-- The payload of a STACK STATUS. -/
def stackStatusPayload (slot presence first count : Nat) : List Byte :=
  enc8 slot ++ enc8 presence ++ enc16 first ++ enc16 count

/-- STACK STATUS on its fields. -/
theorem serveStackStatus_of_fields (s : State) (tag : Byte) {slot presence first count : Nat} (hslot : slot < 256)
    (hpresence : presence < 256) (hfirst : first < 65536) (hcount : count < 65536) :
    let f : Frame := { kind := 38, tag := tag, payload := stackStatusPayload slot presence first count }
    serveStackStatus f s =
      match asFin Config.stackSlots slot with
      | none => s.pushReply .record f .badValue []
      | some k =>
        if presence = 0 then s.pushReply .record f .done (stackStatusFields s k none)
        else if presence = 1 then
          if first ≤ 1023 ∧ 1 ≤ count ∧ count ≤ 256 then
            (s.pushReply .record f .done (stackStatusFields s k (some (first, count)))).useFree
              (stackStatusFree s k (some (first, count)))
          else s.pushReply .record f .badValue []
        else s.pushReply .record f .badValue [] := by
  intro f
  have h0 : byteAt f.payload 0 = slot := byteAt_of rfl hslot
  have h1 : byteAt f.payload 1 = presence := byteAt_of rfl hpresence
  have h2 : halfAt f.payload 2 = first := halfAt_of rfl rfl hfirst
  have h4 : halfAt f.payload 4 = count := halfAt_of rfl rfl hcount
  unfold serveStackStatus
  rw [h0, h1, h2, h4] <;> rfl

/-- The fields of a slot that is not FREE, before its channel records. -/
theorem stackStatusFields_some {s : State} {k : Fin Config.stackSlots} {st : Stack} (h : s.slots[k] = some st)
    (range : Option (Nat × Nat)) : stackStatusFields s k range =
      enc8 st.phase.number ++ enc8 st.fleet ++ encWord st.vp ++ encWord st.serial ++
        enc16 st.listen ++ enc8 st.interval ++ enc16 st.channels ++ enc8 st.fold ++ enc8 st.pending ++
        enc8 st.qcKept ++ encWord st.qcRejected ++ encWord st.dropped ++ encOption 4 (st.firstT0.map encWord) ++
        encOption 4 (st.lastT0.map encWord) ++ enc16 st.tag.toNat ++ enc8 (if st.corrSat then 1 else 0) ++
        encOption 1 (st.sealCause.map fun c => enc8 c.number) ++
        encOption 2 (st.lingerTimer.map fun t => enc16 t.length) ++ encOption 4 (st.sealOrder.map encWord) ++
        encOption 1 ((s.ports[k]).holder.map fun l => enc8 l) ++ enc8 (s.ports[k]).waiting.length ++
        encOption 1 ((placeOf k s.harvestQueue).map enc8) ++ stackRangeFields s st range := by
  have hsat : bitSet [st.corrSat] = if st.corrSat then 1 else 0 := by cases st.corrSat <;> rfl
  rw [stackStatusFields, h]
  dsimp only
  rw [hsat, portFields]
  simp only [List.append_assoc]
  rfl

/-- The channel records of a range on a slot with a record for each of its channels. -/
theorem stackRangeFields_some (s : State) {st : Stack} (hrecords : st.records.length = st.channels)
    (first count : Nat) :
    let n := min count (st.channels - first)
    stackRangeFields s st (some (first, count)) = (if n < 256 then enc8 n else s.freeBytes 1) ++
      (List.range n).flatMap fun i => channelStackFields (first + i) (st.records.getD (first + i) .absent) := by
  intro n
  rw [stackRangeFields, effectiveCount_eq, channelStackList_range (by omega)]
  rfl

theorem stackStatusFree_some {s : State} {k : Fin Config.stackSlots} {st : Stack} (h : s.slots[k] = some st)
    (first count : Nat) : stackStatusFree s k (some (first, count)) =
      if min count (st.channels - first) < 256 then 0 else 1 := by
  rw [stackStatusFree, h]
  dsimp only
  rw [effectiveCount_eq]

/-- A STACK STATUS out of range. -/
theorem serveStackStatus_of_bad (s : State) (tag : Byte) {slot presence first count : Nat} (hslot : slot < 256)
    (hpresence : presence < 256) (hfirst : first < 65536) (hcount : count < 65536)
    (hbad : 11 < slot ∨ 1 < presence ∨ presence = 1 ∧ ¬ (1 ≤ count ∧ count ≤ 256 ∧ first ≤ 1023)) :
    let f : Frame := { kind := 38, tag := tag, payload := stackStatusPayload slot presence first count }
    serveStackStatus f s = s.pushReply .record f .badValue [] := by
  intro f
  rw [serveStackStatus_of_fields s tag hslot hpresence hfirst hcount]
  by_cases hk : slot < 12
  · rw [show asFin Config.stackSlots slot = some ⟨slot, hk⟩ from asFin_of_lt hk]
    dsimp only
    rw [if_neg (by omega)]
    by_cases hone : presence = 1
    · rw [if_pos hone, if_neg (by omega)]
    · rw [if_neg hone]
  · rw [show asFin Config.stackSlots slot = none from asFin_of_le (by show 12 ≤ slot; omega)]

/-- A STACK STATUS in range: without a range, or with one. -/
theorem serveStackStatus_of_good (s : State) (tag : Byte) (k : Fin Config.stackSlots) {presence first count : Nat}
    (hfirst : first < 65536) (hcount : count < 65536) :
    let f : Frame := { kind := 38, tag := tag, payload := stackStatusPayload k presence first count }
    (presence = 0 → serveStackStatus f s = s.pushReply .record f .done (stackStatusFields s k none)) ∧
    (presence = 1 → 1 ≤ count ∧ count ≤ 256 ∧ first ≤ 1023 → serveStackStatus f s =
      (s.pushReply .record f .done (stackStatusFields s k (some (first, count)))).useFree
        (stackStatusFree s k (some (first, count)))) := by
  intro f
  refine ⟨?_, ?_⟩
  · rintro rfl
    rw [serveStackStatus_of_fields s tag (Fin.val_lt_256 k (by decide)) (by decide) hfirst hcount, asFin_val]
    exact if_pos rfl
  · rintro rfl hrange
    rw [serveStackStatus_of_fields s tag (Fin.val_lt_256 k (by decide)) (by decide) hfirst hcount, asFin_val]
    dsimp only
    rw [if_neg (by decide), if_pos rfl, if_pos (by omega)]

/-! ### DEVICE STATUS (R184, R121) -/

/-- One lane by its state. -/
theorem laneFields_eq (s : State) (l : Fin Config.lanes) : laneFields s l =
    match s.lanes[l] with
    | .idle => List.replicate 10 (0 : Byte)
    | .correlating j => [1] ++ (1 :: encWord j.sweep) ++ (1 :: enc8 j.slot) ++ [0, 0]
    | .mergeWait j _ => [2] ++ (1 :: encWord j.sweep) ++ (1 :: enc8 j.slot) ++
        encOption 1 ((placeOf l (s.ports[j.slot]).waiting).map enc8)
    | .merging j _ => [3] ++ (1 :: encWord j.sweep) ++ (1 :: enc8 j.slot) ++ [0, 0] := by
  unfold laneFields waitingPlace
  cases s.lanes[l] <;> rfl

/-! ### The obligation -/

theorem exec_fleetRead {s : State} {tag : Byte} {fleet : Nat} {rest : List Frame}
    (h : RecordRequest s 36 tag (enc8 fleet) rest) (hfleet : fleet < 256) : exec .fleetRead s = .next
      (match asFin Config.fleets fleet with
        | none => s.answerRecord rest (.reply tag 36 .badValue [])
        | some fl => s.answerRecord rest (.reply tag 36 .done (fleetReadFields s fl))) := by
  refine congrArg Host.Outcome.next ((served_record h rfl rfl serveFleetRead).trans ?_)
  unfold serveFleetRead
  dsimp only
  rw [byteAt_of (n := fleet) rfl hfleet]
  cases asFin Config.fleets fleet with
  | none => exact State.takeRecord_pushReply h.1 rest _ _ _
  | some fl => exact State.takeRecord_pushReply h.1 rest _ _ _

/-- A request without operands that answers DONE with fields of the state. -/
theorem served_fields {s : State} {kind tag : Byte} {rest : List Frame} (h : RecordRequest s kind tag [] rest) {k : Nat}
    (hk : kind.toNat = k) (fields : State → List Byte) :
    request .record k (fixedLength 0) (fun f s => s.pushReply .record f .done (fields s)) s =
      s.answerRecord rest (.reply tag kind .done (fields (s.takeRecord rest))) :=
  (served_record h hk rfl _).trans (State.takeRecord_pushReply h.1 rest _ _ _)

theorem exec_stackStatus {s : State} {tag : Byte} {slot presence first count : Nat} {rest : List Frame}
    (h : RecordRequest s 38 tag (stackStatusPayload slot presence first count) rest) : exec .stackStatus s = .next
      (serveStackStatus { kind := 38, tag := tag, payload := stackStatusPayload slot presence first count }
        (s.takeRecord rest)) :=
  congrArg Host.Outcome.next (served_record h rfl rfl serveStackStatus)

/-- Settles O57: each request by its list of fields. -/
theorem queriesChangeNothing : Obligations.QueriesChangeNothing := by
  refine ⟨fun s fleet tag rest hlarge hbyte hreq => ?_, fun s fl tag rest hreq => ?_, fun s tag rest hreq => ?_,
    fun s slot presence first count tag rest hreq hslot hpresence hfirst hcount => ?_, fun s tag rest hreq => ?_,
    fun s tag rest hreq => ?_⟩
  · rw [exec_fleetRead hreq hbyte, show asFin Config.fleets fleet = none from asFin_of_le hlarge]
  · rw [exec_fleetRead hreq (Fin.val_lt_256 fl (by decide)), asFin_val]
    dsimp only
    rw [fleetReadFields, openSlotFields_eq]
    rfl
  · refine congrArg Host.Outcome.next ((served_fields hreq rfl stackListFields).trans ?_)
    have hsummary (k : Fin Config.stackSlots) : stackSummary k s.slots[k] = enc8 k ++ (match s.slots[k] with
        | none => List.replicate 22 (0 : Byte)
        | some st => enc8 st.phase.number ++ (1 :: enc8 st.fleet) ++ (1 :: encWord st.vp) ++
            (1 :: encWord st.serial) ++ (1 :: enc8 st.fold) ++ (1 :: enc8 st.pending) ++
            (1 :: enc16 st.tag.toNat) ++ encOption 1 (st.sealCause.map fun c => enc8 c.number)) := by
      cases s.slots[k] <;> rfl
    show s.answerRecord rest (.reply tag 37 .done (stackListFields s)) = _
    unfold stackListFields
    simp only [hsummary]
    rfl
  · intro inRange
    rw [exec_stackStatus hreq]
    refine ⟨fun hbad => ?_, ?_⟩
    · rw [serveStackStatus_of_bad _ _ hslot hpresence hfirst hcount hbad]
      exact congrArg Host.Outcome.next (State.takeRecord_pushReply hreq.1 rest _ _ _)
    · rintro k rfl hgood
      obtain ⟨hzero, hrange⟩ := serveStackStatus_of_good (presence := presence) (s.takeRecord rest) tag k hfirst hcount
      refine ⟨fun hnone => ?_, fun st hst hrecords => ?_⟩
      · rcases hgood with h0 | ⟨h1, hin⟩
        · rw [hzero h0, State.takeRecord_pushReply hreq.1, stackStatusFields,
            show (s.takeRecord rest).slots[k] = none from hnone]
          rfl
        · rw [hrange h1 hin, State.takeRecord_pushReply hreq.1, stackStatusFields, stackStatusFree,
            show (s.takeRecord rest).slots[k] = none from hnone]
          rfl
      · intro fields n records
        have hfields := stackStatusFields_some (s := s.takeRecord rest) hst
        have hrangeFields := stackRangeFields_some (s.takeRecord rest) hrecords first count
        have hfree := stackStatusFree_some (s := s.takeRecord rest) hst first count
        have hmany (h1 : presence = 1) := hgood.resolve_left (by omega)
        refine ⟨fun h0 => ?_, fun h1 hn => ?_, fun h1 hn => ?_⟩
        · rw [hzero h0, hfields, State.takeRecord_pushReply hreq.1, stackRangeFields, List.append_nil]
          rfl
        · rw [hrange h1 (hmany h1).2, hfields, hrangeFields, hfree, if_pos hn, if_pos hn,
            State.takeRecord_pushReply hreq.1, ← List.append_assoc]
          rfl
        · have hnot : ¬ min count (st.channels - first) < 256 := by omega
          refine ⟨Config.freeByte s.freeCount, ?_⟩
          rw [hrange h1 (hmany h1).2, hfields, hrangeFields, hfree, if_neg hnot, if_neg hnot,
            State.takeRecord_pushReply hreq.1, ← List.append_assoc]
          rfl
  · refine congrArg Host.Outcome.next ((served_fields hreq rfl deviceStatusFields).trans ?_)
    show s.answerRecord rest (.reply tag 44 .done (deviceStatusFields s)) = _
    unfold deviceStatusFields
    simp only [show laneFields s = _ from funext (laneFields_eq s)]
    unfold streamFields ingestFields linkFields
    simp only [List.append_assoc]
    rfl
  · refine congrArg Host.Outcome.next ((served_fields hreq rfl fun _ => capabilityFields).trans ?_)
    rfl

end Sys2Proof.Machine

/-! PROOFS. DEVICE CLEAR (R186). -/

namespace Sys2Proof.Machine

/-! ### The cleared blocks do not see the resolutions -/

/-- A cleared pilot slot does not keep its pins. -/
theorem clearPilot_with_pins (p : PilotSlot) (n : Nat) : clearPilot { p with pins := n } = clearPilot p := by
  unfold clearPilot
  cases p.phase <;> rfl

theorem clearPilot_eq (p : PilotSlot) : clearPilot p =
    { p with phase := if p.phase.isReady then p.phase else .empty, pins := 0 } := by
  obtain ⟨phase, pins, result⟩ := p
  cases phase <;> rfl

/-- Mapping a table does not see a change of one entry that the function does not see. -/
theorem mapVec_set_of_eq {α β : Type} {n : Nat} (f : α → β) (v : Vector α n) (i : Fin n) {a : α} (h : f a = f v[i]) :
    mapVec f (v.set i a) = mapVec f v := by
  refine Vector.ext fun j hj => ?_
  rw [mapVec_getElem, mapVec_getElem, Vector.getElem_set]
  split
  next hij => subst hij; exact h
  · rfl

theorem clearBlocks_removeEntry (e : SweepEntry) (s : State) : clearBlocks (removeEntry e s) = clearBlocks s := by
  have hpilots : mapVec clearPilot (removeEntry e s).pilots = mapVec clearPilot s.pilots := by
    have hunpin : (removeEntry e s).pilots =
        s.pilots.set e.pilot { s.pilots[e.pilot] with pins := (s.pilots[e.pilot]).pins - 1 } := by
      unfold removeEntry abortJob
      cases e.stage <;> rfl
    rw [hunpin]
    exact mapVec_set_of_eq _ _ _ (clearPilot_with_pins _ _)
  have hblocks : clearBlocks (removeEntry e s) =
      { clearBlocks s with pilots := mapVec clearPilot (removeEntry e s).pilots } := by
    unfold removeEntry abortJob
    cases e.stage <;> rfl
  rw [hblocks, hpilots]
  rfl

/-- A run of resolutions at a clear, seen through the cleared blocks. -/
theorem resolveList_clearBlocks (l : List SweepEntry) (ev : Event) :
    (l.foldl (fun ev e => resolve .droppedClear none e ev) ev).change clearBlocks =
      { st := clearBlocks ev.st, raised := ev.raised
        results := ev.results ++ l.map fun e => e.result .droppedClear none } := by
  induction l generalizing ev with
  | nil => simp [Event.change]
  | cons e l ih =>
    rw [List.foldl_cons, ih, resolve_clear, clearBlocks_removeEntry]
    simp

/-- The clear as an event. -/
theorem clearEvent_eq (s : State) : clearEvent s =
    { st := clearBlocks s, raised := 0, results := s.sweeps.map fun e => e.result .droppedClear none } := by
  unfold clearEvent resolveAll
  rw [resolveList_clearBlocks]
  simp

/-- DEVICE CLEAR, taken: the cleared blocks, the REPLY, then the SWEEP RESULTs. -/
theorem exec_deviceClear {s : State} {tag : Byte} {rest : List Frame} (h : RecordRequest s 46 tag [] rest) :
    exec .deviceClear s = .next ((s.sweeps.map fun e => e.result .droppedClear none).foldl State.sendResult
      ((clearBlocks s).answerRecord rest (.reply tag 46 .done []))) := by
  refine congrArg Host.Outcome.next ((served_record h rfl rfl serveDeviceClear).trans ?_)
  unfold serveDeviceClear
  rw [clearEvent_eq]
  unfold Event.reply Event.finish
  dsimp only
  rw [State.raise_zero]
  exact congrArg (List.foldl State.sendResult · _) (State.takeRecord_pushReply (s := clearBlocks s) h.1 rest _ _ _)

/-- Settles O60: the cleared blocks with the REPLY and the results of the resolutions. -/
theorem deviceClearDiscardsWork : Obligations.DeviceClearDiscardsWork := by
  intro s tag rest hreq
  obtain ⟨-, hreading, -⟩ := id hreq
  have hcleared := exec_deviceClear hreq
  rw [sendResults_eq, List.length_map] at hcleared
  refine ⟨(clearBlocks s).monitor, (clearBlocks s).pilots, (clearBlocks s).fleets, (clearBlocks s).lanes,
    (clearBlocks s).slots, (clearBlocks s).ports, ((s.sweeps.map fun e => e.result .droppedClear none).foldl
      State.sendResult ((clearBlocks s).answerRecord rest (.reply tag 46 .done []))).source.output, hcleared.trans ?_, fun hup => ?_, fun hdown => ?_, rfl, rfl,
    fun i => ?_, fun p => ?_, fun fl => ?_, fun l => ?_, fun k => ⟨?_, ?_⟩⟩
  · rw [hreading]
    rfl
  · exact sendResults_output (s := (clearBlocks s).answerRecord rest (.reply tag 46 .done [])) hup _
  · exact sendResults_down (s := (clearBlocks s).answerRecord rest (.reply tag 46 .done [])) hdown _
  · exact mapVec_getElem _ _ _ _
  · exact (mapVec_getElem _ _ _ _).trans (clearPilot_eq _)
  · exact mapVec_getElem _ _ _ _
  · simp [clearBlocks]
  · simp [clearBlocks]
  · simp [clearBlocks, MergePort.reset]

end Sys2Proof.Machine

/-! PROOFS. Grants, CORRELATE completions and merges (sections 6.2 to 6.6). -/

namespace Sys2Proof.Machine

/-! ### Grants and CORRELATE completions (R99, R101, R111, R112) -/

/-- The channel snapshot channel by channel. -/
theorem channelSnapshot_eq {s : State} (h : s.ingest.channels ≤ 1024) : channelSnapshot s =
    (List.range s.ingest.channels).map fun c =>
      { active := (s.monitor.table.toList.getD c Channel.reset).active
        monitor := (s.monitor.table.toList.getD c Channel.reset).monitor } := by
  have hsize : Config.channels = 1024 := rfl
  refine List.ext_getElem (by simp [channelSnapshot]; omega) fun c hc hc' => ?_
  have hlt : c < s.ingest.channels := by simpa using hc'
  have htable : c < s.monitor.table.toList.length := by rw [Vector.length_toList]; omega
  simp only [channelSnapshot, List.getElem_map, List.getElem_take, List.getElem_range]
  rw [List.getD_eq_getElem _ _ htable]

theorem grantNext_of_due {s : State} {e : SweepEntry} {l : Fin Config.lanes} (he : chooseSweep s.sweeps = some e)
    (hl : chooseLane s = some l) : grantNext s = grantTo e l s := by
  unfold grantNext
  rw [he, hl]

theorem correlateCompletion_of_correlating {s : State} {l : Fin Config.lanes} {j : Job} (h : s.lanes[l] = .correlating j) :
    correlateCompletion l s =
      askPort l j (correlate j s) (s.updateSweep j.sweep fun x => { x with stage := .merging l }) := by
  unfold correlateCompletion
  rw [h]

theorem exec_correlateCompletion (l : Fin Config.lanes) (s : State) :
    exec (.correlateCompletion l) s = .next (correlateCompletion l s) := by
  show execCorrelateCompletion l s = _
  unfold execCorrelateCompletion
  rw [asFin_val]

theorem askPort_of_free {s : State} {j : Job} (hholder : (s.ports[j.slot]).holder = none)
    (hwaiting : (s.ports[j.slot]).waiting = []) (l : Fin Config.lanes) (sc : Scratch) : askPort l j sc s =
      (s.setPort j.slot { holder := some l, waiting := [] }).setLane l (.merging j sc) := by
  unfold askPort
  dsimp only
  rw [if_pos ⟨hholder, hwaiting⟩, hwaiting]

theorem askPort_of_busy {s : State} {j : Job} (h : (s.ports[j.slot]).holder ≠ none ∨ (s.ports[j.slot]).waiting ≠ [])
    (l : Fin Config.lanes) (sc : Scratch) : askPort l j sc s =
      (s.setPort j.slot { s.ports[j.slot] with waiting := (s.ports[j.slot]).waiting ++ [l] }).setLane l
        (.mergeWait j sc) :=
  if_neg fun ⟨hholder, hwaiting⟩ => h.elim (absurd hholder) (absurd hwaiting)

/-- Settles O54: the Dispatcher's choice, and the port a lane asks for. -/
theorem grantsStartJobs : Obligations.GrantsStartJobs := by
  refine ⟨fun s hnone => congrArg Host.Outcome.next (grantNext_of_noGrant hnone), fun s hqueue hsweep hlane => ?_,
    fun s e l he hl hchannels => ?_, fun s l j hj => ?_⟩
  · have hdue : s.grantDue = true := by
      unfold State.grantDue
      simpa [Option.isSome_iff_ne_none] using ⟨hsweep, hlane⟩
    unfold step
    rw [hqueue]
    dsimp only
    rw [idle, if_pos hdue]
    rfl
  · show Host.Outcome.next (grantNext s) = _
    rw [grantNext_of_due he hl, grantTo, jobOf, channelSnapshot_eq hchannels]
    rfl
  · intro port merging
    rw [exec_correlateCompletion, correlateCompletion_of_correlating hj]
    refine ⟨fun hfree hempty => ?_, fun hbusy => ?_⟩
    · exact congrArg Host.Outcome.next (askPort_of_free (s := merging) hfree hempty l (correlate j s))
    · exact congrArg Host.Outcome.next (askPort_of_busy (s := merging) hbusy l (correlate j s))

/-! ### Merges (R112 to R115) -/

theorem applyMerge_of_slot {s : State} {j : Job} {st : Stack} (h : s.slots[j.slot] = some st) (sc : Scratch) :
    applyMerge j sc s = s.setSlot j.slot (some (mergeStack j sc st)) := by
  unfold applyMerge
  rw [h]

/-- A merge leaves what the resolution asks of the slot. -/
theorem resolutionRaises_applyMerge (j : Job) (sc : Scratch) (s : State) (e : SweepEntry) :
    resolutionRaises (applyMerge j sc s) e = resolutionRaises s e := by
  unfold resolutionRaises
  rw [applyMerge_slot]
  by_cases h : j.slot = e.slot
  · rw [if_pos h]
    cases s.slots[e.slot] <;> rfl
  · rw [if_neg h]

theorem passPort_of_free {s : State} {k : Fin Config.stackSlots} (h : (s.ports[k]).waiting = []) :
    passPort k s = s.setPort k { holder := none, waiting := [] } := by
  unfold passPort
  rw [h]

theorem passPort_of_waiting {s : State} {k : Fin Config.stackSlots} {l : Fin Config.lanes} {waiting : List (Fin Config.lanes)}
    {j : Job} {sc : Scratch} (h : (s.ports[k]).waiting = l :: waiting) (hl : s.lanes[l] = .mergeWait j sc) :
    passPort k s = (s.setPort k { holder := some l, waiting := waiting }).setLane l (.merging j sc) := by
  unfold passPort
  rw [h]
  dsimp only
  unfold beginMerge
  rw [show (s.setPort k { holder := some l, waiting := waiting }).lanes[l] = .mergeWait j sc from hl]

/-- A merge completion as one event: the scratch, the resolution, the lane's end and the port. -/
theorem exec_mergeCompletion {s : State} {l : Fin Config.lanes} {j : Job} {sc : Scratch} {e : SweepEntry}
    (hlane : s.lanes[l] = .merging j sc) (hdistinct : DistinctNumbers s) (he : e ∈ s.sweeps)
    (hnumber : e.number = j.sweep) : exec (.mergeCompletion l) s = .next
      (((passPort j.slot (((applyMerge j sc s).resolvedAs e .merged).setLane l .idle)).sendResult
        (e.result .merged (some sc.counts))).raise (resolutionRaises s e)) := by
  show execMergeCompletion l s = _
  unfold execMergeCompletion
  rw [asFin_val]
  dsimp only
  unfold mergeCompletion
  rw [hlane]
  dsimp only
  rw [resolveMerged_of_mem hdistinct he hnumber, resolutionRaises_applyMerge]
  simp [Event.finish, Event.change]

/-- The sums of an accepted trace, lag by lag. -/
theorem addTrace_eq (w : Nat) {acc trace : List Int} (h : trace.length = acc.length) : addTrace w acc trace =
    (List.range acc.length).map fun k => acc.getD k 0 + w * trace.getD k 0 := by
  refine List.ext_getElem? fun k => ?_
  unfold addTrace
  rw [zipFirst_getElem?, List.getElem?_map]
  by_cases hk : k < acc.length
  · rw [List.getElem?_eq_getElem hk, List.getElem?_eq_getElem (h ▸ hk), List.getElem?_range hk, Option.map_some,
      List.getD_eq_getElem _ _ hk, List.getD_eq_getElem _ _ (h ▸ hk)]
  · have hrange : (List.range acc.length)[k]? = none := List.getElem?_eq_none (by rw [List.length_range]; omega)
    rw [hrange, List.getElem?_eq_none (by omega)]
    rfl

/-- The merged stack field by field (R113, R114). -/
theorem mergeStack_eq (j : Job) (sc : Scratch) (st : Stack) : mergeStack j sc st =
    { st with
      records := zipFirst mergeChannel st.records sc.records
      fold := st.fold + 1
      firstT0 := match st.firstT0 with
        | none => some j.t0
        | some o => if st.fold = 0 ∨ ssnBefore j.t0 o = true then some j.t0 else some o
      lastT0 := match st.lastT0 with
        | none => some j.t0
        | some o => if st.fold = 0 ∨ ssnBefore o j.t0 = true then some j.t0 else some o
      qcKept := if j.qc = .fail ∨ (j.qc = .noReport ∧ j.noReport = .fail) then st.qcKept + 1 else st.qcKept
      corrSat := st.corrSat || decide (1 ≤ sc.counts.saturated) } := by
  have hfails : qcFails j.qc j.noReport = true ↔ j.qc = .fail ∨ (j.qc = .noReport ∧ j.noReport = .fail) := by
    cases j.qc <;> cases j.noReport <;> simp [qcFails]
  have hkept : (if qcFails j.qc j.noReport then st.qcKept + 1 else st.qcKept) =
      if j.qc = .fail ∨ (j.qc = .noReport ∧ j.noReport = .fail) then st.qcKept + 1 else st.qcKept :=
    if_congr hfails rfl rfl
  unfold mergeStack
  rw [hkept]
  rfl

/-- Settles O55: the event of a merge completion by its port, and the merge of a record by its cause. -/
theorem mergesEnterTheStack : Obligations.MergesEnterTheStack := by
  refine ⟨fun s l j sc e st hlane hdistinct he hnumber hslot hstage hst => ?_, fun c r => ⟨?_, ?_, ?_, ?_, ?_⟩⟩
  · intro failing merged resolved port result
    have hmerged : applyMerge j sc s = s.setSlot j.slot (some merged) :=
      (applyMerge_of_slot hst sc).trans (congrArg (fun m => s.setSlot j.slot (some m)) (mergeStack_eq j sc st))
    have hresolved : ((applyMerge j sc s).resolvedAs e .merged).setLane l .idle = resolved := by rw [hmerged]
    have hports : (((applyMerge j sc s).resolvedAs e .merged).setLane l .idle).port = s.port :=
      (State.resolvedAs_port _ e .merged).trans (applyMerge_lanes j sc s).2
    rw [exec_mergeCompletion hlane hdistinct he hnumber]
    rw [hresolved] at hports ⊢
    have hport : resolved.ports[j.slot] = port := congrFun hports j.slot
    refine ⟨fun hempty => ?_, fun l2 waiting j2 sc2 hwaiting hl2 => ?_⟩
    · rw [passPort_of_free (by rw [hport]; exact hempty)]
    · have hne : l ≠ l2 := by
        rintro rfl
        rw [hlane] at hl2
        cases hl2
      have hlane2 : resolved.lanes[l2] = .mergeWait j2 sc2 := by
        have hset := State.setLane_lane ((applyMerge j sc s).resolvedAs e .merged) l l2 .idle
        rw [hresolved, if_neg hne, State.resolvedAs_lane, if_neg (by rw [hstage]; nofun),
          (applyMerge_lanes j sc s).1] at hset
        exact hset.trans hl2
      rw [passPort_of_waiting (by rw [hport]; exact hwaiting) hlane2]
  · intro hcause hlength
    rw [mergeChannel_of_none c hcause, addTrace_eq _ hlength]
  · exact mergeChannel_of_inactive c
  · exact fun h => mergeChannel_of_edit c h nofun
  · exact fun h => mergeChannel_of_edit c h nofun
  · exact fun h => mergeChannel_of_edit c h nofun

end Sys2Proof.Machine

/-! PROOFS. Accepted announcements (R69 to R71, R125, R126, R133). -/

namespace Sys2Proof.Machine

/-! ### The slot an announcement finds (R68) -/

theorem firstFree_eq_some {s : State} {k : Fin Config.stackSlots} (hfree : s.slots[k] = none)
    (hbefore : ∀ j : Fin Config.stackSlots, j < k → s.slots[j] ≠ none) : s.firstFree = some k := by
  refine List.find?_eq_some_iff_getElem.2 ⟨by rw [hfree]; rfl, k, by simp, by simp, fun j hj => ?_⟩
  rw [List.getElem_finRange]
  have hoccupied := hbefore ⟨j, hj.trans k.isLt⟩ hj
  simpa [Option.isSome_iff_ne_none] using hoccupied

theorem matchFree_of_free {s : State} {k : Fin Config.stackSlots} (hfree : s.slots[k] = none)
    (hbefore : ∀ j : Fin Config.stackSlots, j < k → s.slots[j] ≠ none) : matchFree s = .fresh k := by
  rw [matchFree, firstFree_eq_some hfree hbefore]

theorem stackMatch_of_none {s : State} {fl : Fin Config.fleets} {vp : Word32} (h : s.openStack fl = none) :
    stackMatch s fl vp = matchFree s := by
  rw [stackMatch, h]

theorem stackMatch_of_other {s : State} {fl : Fin Config.fleets} {vp : Word32} {k : Fin Config.stackSlots} {st : Stack}
    (h : s.openStack fl = some (k, st)) (hvp : st.vp ≠ vp) : stackMatch s fl vp = matchFree s := by
  rw [stackMatch, h]
  exact if_neg hvp

theorem stackMatch_of_join {s : State} {fl : Fin Config.fleets} {vp : Word32} {k : Fin Config.stackSlots} {st : Stack}
    (h : s.openStack fl = some (k, st)) (hvp : st.vp = vp) (hfold : st.fold + st.pending < 32)
    (hlisten : (s.fleets[fl]).params.listen = st.listen) : stackMatch s fl vp = .join k st := by
  rw [stackMatch, h]
  exact (if_pos hvp).trans ((if_pos hfold).trans (if_pos hlisten))

/-- An announcement that passes checks 1 to 7 goes to the stack match. -/
theorem exec_sweepAnnounce_of_passed {s : State} {fl : Fin Config.fleets} {vp : Word32} {p : Fin Config.pilots} {t0 : Ssn}
    {n : Nat} {i : Fin 4} {samples : List (BitVec 16)} {energy : Nat} {tag : Byte} {rest : List Frame}
    (hreq : SourceRequest s 21 tag (enc8 fl ++ encWord vp ++ enc8 p ++ encWord t0) rest)
    (hdefined : (s.fleets[fl]).defined = true) (hphase : (s.pilots[p]).phase = .ready n i samples energy)
    (hinterval : i = s.ingest.interval) (hbounds : t0InBounds s t0 = true) (hslip : slipPasses s.fleets[fl] t0 = true)
    (htable : s.sweeps.length < 32) : exec .sweepAnnounce s = .next
      (announceStack (announceFrame tag fl vp p t0) fl p n energy vp t0 (s.takeSource rest)) := by
  have hpassed : announceRefusal (s.takeSource rest) fl i t0 = none := by
    rw [announceRefusal_of_slip_passes (s := s.takeSource rest) hinterval hbounds hslip]
    exact if_neg (Nat.not_le.2 htable)
  rw [exec_sweepAnnounce hreq, serveSweepAnnounce_of_ready (s := s.takeSource rest) hdefined hphase, hpassed]
  rfl

/-! ### The state after an acceptance (R69) -/

/-- The stack of a slot that opens (R125). -/
def openedStack (s : State) (fl : Fin Config.fleets) (vp : Word32) : Stack :=
  { phase := .opened, fleet := fl, vp := vp, serial := s.stackSerials, listen := (s.fleets[fl]).params.listen,
    interval := s.ingest.interval, channels := s.ingest.channels, fold := 0, pending := 1, qcKept := 0,
    qcRejected := 0, dropped := 0, firstT0 := none, lastT0 := none, tag := 1, corrSat := false,
    records := List.replicate s.ingest.channels (ChannelStack.opening (s.fleets[fl]).params.listen) }

/-- A slot opened for an entry, with the entry added. -/
def State.openedFor (s : State) (k : Fin Config.stackSlots) (entry : SweepEntry) : State :=
  { ((s.setSlot k (some (openedStack s entry.fleet entry.vp))).pinPilot entry.pilot).setFleet entry.fleet
      { s.fleets[entry.fleet] with lastT0 := some entry.t0, openSlot := some k } with
    sweeps := s.sweeps ++ [entry], sweepCounter := s.sweepCounter + 1, stackSerials := s.stackSerials + 1 }

theorem addSweep_openSlot_eq (s : State) (k : Fin Config.stackSlots) (entry : SweepEntry) :
    addSweep entry (s.openSlot k entry.fleet entry.vp) = s.openedFor k entry := by
  unfold addSweep State.openSlot State.openedFor State.pinPilot State.setPilot State.setFleet State.setSlot openedStack
  simp only [Fin.getElem_fin, Vector.set_set, Vector.getElem_set_self]

/-- The fleet's old slot sealed FLEET_MOVED before the new one opens. -/
theorem State.sealedAs_openedFor (s : State) {k k0 : Fin Config.stackSlots} (hne : k0 ≠ k) {st0 : Stack}
    {entry : SweepEntry} (hfleet : st0.fleet = entry.fleet) :
    (s.sealedAs k0 .fleetMoved st0).openedFor k entry =
      if 1 ≤ st0.pending then
        (s.openedFor k entry).setSlot k0 (some { st0 with phase := .draining .fleetMoved })
      else
        { (s.openedFor k entry).setSlot k0 (some { st0 with phase := .sealed .fleetMoved s.sealOrders }) with
          sealOrders := s.sealOrders + 1, harvestQueue := s.harvestQueue ++ [k0] } := by
  have hslots (a b : Option Stack) : (s.slots.set k0 a).set k b = (s.slots.set k b).set k0 a :=
    Vector.set_comm _ _ fun h => hne (Fin.ext h)
  cases entry
  dsimp only at hfleet
  subst hfleet
  unfold State.sealedAs
  dsimp only
  split
  · unfold State.openedFor State.pinPilot State.setPilot State.setFleet State.setSlot openedStack
    simp only [Fin.getElem_fin, Vector.set_set, Vector.getElem_set_self, hslots]
  · unfold State.openedFor State.pinPilot State.setPilot State.setFleet State.setSlot openedStack
    simp only [Fin.getElem_fin, Vector.set_set, Vector.getElem_set_self, hslots]

theorem acceptOpen_of_none (f : Frame) (k : Fin Config.stackSlots) {entry : SweepEntry} {s : State}
    (h : s.openStack entry.fleet = none) : acceptOpen f k entry s =
      (s.openedFor k entry).pushReply .source f .done (announceFields entry false none) := by
  have hmoved : sealMoved entry.fleet entry.vp (Event.start s) = Event.start s := by
    rw [sealMoved, Event.start_st, h]
  unfold acceptOpen
  rw [hmoved, movedSlot, h]
  dsimp only
  rw [← addSweep_openSlot_eq]
  exact State.raise_zero _

theorem acceptOpen_of_moved (f : Frame) (k : Fin Config.stackSlots) {k0 : Fin Config.stackSlots} {st0 : Stack}
    {entry : SweepEntry} {s : State} (h : s.openStack entry.fleet = some (k0, st0)) (hvp : st0.vp ≠ entry.vp) :
    acceptOpen f k entry s =
      (((s.sealedAs k0 .fleetMoved st0).openedFor k entry).pushReply .source f .done
        (announceFields entry false (some k0))).raise (sealRaises st0) := by
  have hmoved : sealMoved entry.fleet entry.vp (Event.start s) =
      { st := s.sealedAs k0 .fleetMoved st0, raised := sealRaises st0, results := [] } := by
    rw [sealMoved, Event.start_st, h]
    dsimp only
    rw [if_neg hvp, sealSlot_eq]
    simp
  unfold acceptOpen
  rw [hmoved, movedSlot, h]
  dsimp only
  rw [if_neg hvp, ← addSweep_openSlot_eq]
  simp [Event.reply, Event.finish, Event.change]

/-- Settles O46: the slot found FREE, the old slot sealed where there is one, and the entry added. -/
theorem announcementsOpenStacks : Obligations.AnnouncementsOpenStacks := by
  intro s fl vp p t0 n i samples energy k tag rest hreq hdefined hphase hinterval hbounds hslip htable hfree hbefore
    q row complete cs entry stack accepted reply
  have hentry : newEntry s fl vp k p t0 n energy = entry := rfl
  have haccepted : s.openedFor k entry = accepted := rfl
  have hpassed := exec_sweepAnnounce_of_passed hreq hdefined hphase hinterval hbounds hslip htable
  have hmatch : matchFree (s.takeSource rest) = .fresh k := matchFree_of_free (s := s.takeSource rest) hfree hbefore
  refine ⟨fun hnone => ?_, fun k0 st0 hopen hst0 hvp hfleet => ?_⟩
  · have hclosed := State.openStack_eq_none (s := s.takeSource rest) hnone
    rw [hpassed, announceStack, stackMatch_of_none hclosed, hmatch]
    dsimp only
    refine congrArg Host.Outcome.next ((acceptOpen_of_none _ k (entry := entry) hclosed).trans ?_)
    exact State.takeSource_pushReply (s := accepted) hreq.1 rest _ _ _
  · have hstack := State.openStack_eq_some (s := s.takeSource rest) hopen hst0
    have hne : k0 ≠ k := by
      rintro rfl
      rw [hfree] at hst0
      cases hst0
    have hannounce : exec .sweepAnnounce s = .next
        ((((s.sealedAs k0 .fleetMoved st0).openedFor k entry).answerSource rest (reply (1 :: enc8 k0))).raise
          (sealRaises st0)) := by
      rw [hpassed, announceStack, stackMatch_of_other hstack hvp, hmatch]
      dsimp only
      refine congrArg Host.Outcome.next ((acceptOpen_of_moved _ k (entry := entry) hstack hvp).trans ?_)
      rw [State.sealedAs_takeSource]
      refine congrArg (State.raise · (sealRaises st0)) ?_
      exact State.takeSource_pushReply (s := (s.sealedAs k0 .fleetMoved st0).openedFor k entry)
        (by show (s.sealedAs k0 .fleetMoved st0).source.up = true; rw [(State.sealedAs_links _ _ _ _).1]; exact hreq.1)
        rest _ _ _
    rw [State.sealedAs_openedFor s hne (entry := entry) hfleet, haccepted] at hannounce
    refine ⟨fun hpending => ?_, fun hpending => ?_⟩
    · rw [if_pos hpending, sealRaises, if_pos hpending, State.raise_zero] at hannounce
      exact hannounce
    · rw [if_neg (by omega), sealRaises, if_neg (by omega)] at hannounce
      exact hannounce

/-! ### Joining (R69, R126, R131) -/

/-- Settles O47: the stack match finds the slot, and the entry is added to the joined stack. -/
theorem announcementsJoinStacks : Obligations.AnnouncementsJoinStacks := by
  intro s fl vp p t0 n i samples energy k st tag rest hreq hdefined hphase hinterval hbounds hslip htable hopen hst hvp
    hfleet _ hfold hlisten
  subst hfleet
  intro q row complete cs entry joined
  have hstack := State.openStack_eq_some (s := s.takeSource rest) hopen hst
  rw [exec_sweepAnnounce_of_passed hreq hdefined hphase hinterval hbounds hslip htable, announceStack,
    stackMatch_of_join (s := s.takeSource rest) hstack hvp hfold hlisten]
  have hjoined : s.joinSlot k st = s.setSlot k (some joined) := rfl
  have hadded : addSweep entry (s.joinSlot k st) = { ((s.setSlot k (some joined)).setPilot p
        { s.pilots[p] with pins := (s.pilots[p]).pins + 1 }).setFleet st.fleet { s.fleets[st.fleet] with lastT0 := some t0 } with
      sweeps := s.sweeps ++ [entry], sweepCounter := s.sweepCounter + 1 } := by
    rw [hjoined]
    rfl
  rw [← hadded]
  exact congrArg Host.Outcome.next (State.takeSource_pushReply (s := addSweep entry (s.joinSlot k st)) hreq.1 rest _ _ _)

end Sys2Proof.Machine

/-! PROOFS. The resolutions of one event together, and what rows leave alone (R52, R76, R77, R117, R134, R135, R170). -/

namespace Sys2Proof.Machine

/-! ### What resolutions work on -/

/-- The two states agree in what resolutions change beside the table. -/
structure State.SameWork (s t : State) : Prop where
  pilots : t.pilots = s.pilots
  lanes : t.lanes = s.lanes
  slots : t.slots = s.slots
  harvestQueue : t.harvestQueue = s.harvestQueue
  sealOrders : t.sealOrders = s.sealOrders

namespace State.SameWork

variable {s t u : State}

theorem refl (s : State) : s.SameWork s := ⟨rfl, rfl, rfl, rfl, rfl⟩

theorem trans (h : s.SameWork t) (g : t.SameWork u) : s.SameWork u :=
  ⟨g.pilots.trans h.pilots, g.lanes.trans h.lanes, g.slots.trans h.slots, g.harvestQueue.trans h.harvestQueue,
    g.sealOrders.trans h.sealOrders⟩

/-- A resolution does the same work on both. -/
theorem resolvedAs (h : s.SameWork t) (e : SweepEntry) (out : SweepOutcome) :
    (s.resolvedAs e out).SameWork (t.resolvedAs e out) := by
  obtain ⟨hpilots, hlanes, hslots, hqueue, horders⟩ := h
  cases s
  cases t
  dsimp only at hpilots hlanes hslots hqueue horders
  subst hpilots hlanes hslots hqueue horders
  unfold State.resolvedAs
  dsimp only
  cases e.stage <;> split <;> (try split) <;> exact ⟨rfl, rfl, rfl, rfl, rfl⟩

theorem resolvedAllAs (h : s.SameWork t) (out : SweepOutcome) (l : List SweepEntry) :
    (s.resolvedAllAs out l).SameWork (t.resolvedAllAs out l) := by
  induction l generalizing s t with
  | nil => exact h
  | cons e l ih => exact ih (h.resolvedAs e out)

end State.SameWork

/-- The harvest queue behind a resolution: its slot joins where it enters SEALED (R134, R135). -/
theorem State.resolvedAs_harvestQueue (s : State) (e : SweepEntry) (out : SweepOutcome) :
    (s.resolvedAs e out).harvestQueue = s.harvestQueue ++ if resolutionRaises s e = 0 then [] else [e.slot] := by
  unfold State.resolvedAs resolutionRaises
  dsimp only
  cases s.slots[e.slot] with
  | none => cases e.stage <;> simp [State.setLane, State.setPilot]
  | some st => cases hd : st.drainsWith <;> cases e.stage <;> simp [hd, State.setLane, State.setPilot, State.setSlot]

/-- The lanes behind several resolutions: those of CORRELATING entries are IDLE (R117). -/
theorem State.resolvedAllAs_lane (s : State) (out : SweepOutcome) (l : List SweepEntry) (i : Fin Config.lanes) :
    ((∃ e ∈ l, e.stage = .correlating i) → (s.resolvedAllAs out l).lane i = .idle) ∧
      ((∀ e ∈ l, e.stage ≠ .correlating i) → (s.resolvedAllAs out l).lane i = s.lane i) := by
  induction l generalizing s with
  | nil => exact ⟨by simp, fun _ => rfl⟩
  | cons e l ih =>
    obtain ⟨hidle, hsame⟩ := ih (s.resolvedAs e out)
    have hlane := State.resolvedAs_lane s e out i
    refine ⟨fun hsome => ?_, fun hnone => ?_⟩
    · by_cases hl : ∃ x ∈ l, x.stage = .correlating i
      · exact hidle hl
      · obtain ⟨x, hx, hstage⟩ := hsome
        rcases List.mem_cons.1 hx with rfl | hx
        · exact (hsame fun y hy hys => hl ⟨y, hy, hys⟩).trans (hlane.trans (if_pos hstage))
        · exact absurd ⟨x, hx, hstage⟩ hl
    · exact (hsame fun x hx => hnone x (List.mem_cons_of_mem _ hx)).trans
        (hlane.trans (if_neg (hnone e (List.mem_cons_self ..))))

/-! ### The resolutions of one event -/

/-- Resolutions one after the other, all they do to an event: the slots that enter SEALED join the queue, and raise
VP_SEALED where there is one. -/
theorem resolveList_eq {out : SweepOutcome} (hout : out ≠ .droppedClear) (l : List SweepEntry) (ev : Event)
    (hd : DistinctNumbers ev.st) : ∃ sealed : List (Fin Config.stackSlots),
      (ev.st.resolvedAllAs out l).harvestQueue = ev.st.harvestQueue ++ sealed ∧
      l.foldl (fun ev e => resolve out none e ev) ev =
        { st := ev.st.resolvedAllAs out l, raised := ev.raised ||| (if sealed = [] then 0 else 1)
          results := ev.results ++ l.map fun e => e.result out none } := by
  induction l generalizing ev with
  | nil => exact ⟨[], by simp [State.resolvedAllAs]⟩
  | cons e l ih =>
    have hd' : DistinctNumbers (ev.st.resolvedAs e out) := hd.of_filter (State.resolvedAs_sweeps ev.st e out)
    rw [List.foldl_cons, resolve_eq hout none e ev hd]
    obtain ⟨sealed, hqueue, hlist⟩ := ih
      { st := ev.st.resolvedAs e out, raised := ev.raised ||| resolutionRaises ev.st e
        results := ev.results ++ [e.result out none] } hd'
    have hone : resolutionRaises ev.st e = 0 ∨ resolutionRaises ev.st e = 1 := by
      unfold resolutionRaises
      split
      · exact .inl rfl
      · split
        · exact .inr rfl
        · exact .inl rfl
    refine ⟨(if resolutionRaises ev.st e = 0 then [] else [e.slot]) ++ sealed, ?_, hlist.trans ?_⟩
    · rw [State.resolvedAllAs, hqueue, State.resolvedAs_harvestQueue, List.append_assoc]
    · rw [List.map_cons, List.append_assoc, State.resolvedAllAs, BitVec.or_assoc]
      congr 2
      rcases hone with h | h <;> rw [h]
      · simp
      · rw [if_neg (by decide : ¬ (1 : CauseSet) = 0), if_neg (by simp : ¬ [e.slot] ++ sealed = [])]
        by_cases hnil : sealed = []
        · rw [if_pos hnil]; rfl
        · rw [if_neg hnil]; rfl

/-- The resolutions between two points of an event. -/
structure Resolutions (a b : Event) (out : SweepOutcome) (gone : List SweepEntry) : Prop where
  work : (a.st.resolvedAllAs out gone).SameWork b.st
  results : b.results = a.results ++ gone.map fun e => e.result out none
  sealed : b.raised.getLsbD 0 =
    (a.raised.getLsbD 0 || decide ((a.st.resolvedAllAs out gone).harvestQueue ≠ a.st.harvestQueue))

namespace Resolutions

variable {a b c : Event} {out : SweepOutcome} {gone : List SweepEntry}

/-- No resolution. -/
theorem nothing (hwork : a.st.SameWork b.st) (hresults : b.results = a.results)
    (hsealed : b.raised.getLsbD 0 = a.raised.getLsbD 0) (out : SweepOutcome) : Resolutions a b out [] :=
  ⟨hwork, by simp [hresults], by rw [hsealed]; simp [State.resolvedAllAs]⟩

/-- Nothing of the work happens before the resolutions. -/
theorem before (h : Resolutions b c out gone) (hwork : a.st.SameWork b.st) (hresults : b.results = a.results)
    (hsealed : b.raised.getLsbD 0 = a.raised.getLsbD 0) : Resolutions a c out gone := by
  have hall := hwork.resolvedAllAs out gone
  exact ⟨hall.trans h.work, by rw [h.results, hresults],
    by rw [h.sealed, hsealed, hall.harvestQueue, hwork.harvestQueue]⟩

theorem of_nil (h : Resolutions a b out []) :
    a.st.SameWork b.st ∧ b.results = a.results ∧ b.raised.getLsbD 0 = a.raised.getLsbD 0 :=
  ⟨h.work, h.results.trans (List.append_nil _), h.sealed.trans (by simp [State.resolvedAllAs])⟩

/-- Nothing of the work happens behind the resolutions. -/
theorem behind (h : Resolutions a b out gone) (hwork : b.st.SameWork c.st) (hresults : c.results = b.results)
    (hsealed : c.raised.getLsbD 0 = b.raised.getLsbD 0) : Resolutions a c out gone :=
  ⟨h.work.trans hwork, by rw [hresults, h.results], by rw [hsealed, h.sealed]⟩

/-- All entries that satisfy a condition are resolved. -/
theorem resolveAll {ev : Event} (hd : DistinctNumbers ev.st) (p : SweepEntry → Bool) (hout : out ≠ .droppedClear) :
    Resolutions ev (resolveAll p out ev) out (ev.st.sweeps.filter p) := by
  obtain ⟨sealed, hqueue, heq⟩ := resolveList_eq hout (ev.st.sweeps.filter p) ev hd
  unfold Machine.resolveAll
  rw [heq]
  refine ⟨.refl _, rfl, ?_⟩
  have hchanged : decide ((ev.st.resolvedAllAs out (ev.st.sweeps.filter p)).harvestQueue ≠ ev.st.harvestQueue) =
      decide (sealed ≠ []) := by
    rw [hqueue]
    simp
  rw [hchanged, BitVec.getLsbD_or]
  by_cases h : sealed = [] <;> simp [h]

theorem dropAll {ev : Event} (hd : DistinctNumbers ev.st) (p : SweepEntry → Bool) (hout : out ≠ .droppedClear) :
    Resolutions ev (dropAll p out ev) out (ev.st.sweeps.filter p) := by
  refine (resolveAll hd p hout).behind ?_ ?_ ?_
  all_goals unfold Machine.dropAll Event.addCauseIf
  · split <;> exact .refl _
  · split <;> rfl
  · split
    · simp [Event.addCause, Cause.set, Cause.bit]
    · rfl

end Resolutions

/-! ### The causes drops raise -/

theorem resolve_raised_bit (out : SweepOutcome) (counts : Option JobCounts) (e : SweepEntry) (ev : Event) {i : Nat}
    (hi : 1 ≤ i) : (resolve out counts e ev).raised.getLsbD i = ev.raised.getLsbD i := by
  have hstack (ev : Event) : (resolveStack e.slot out ev).raised.getLsbD i = ev.raised.getLsbD i := by
    unfold resolveStack
    split
    · rfl
    · dsimp only
      split
      · split
        · rw [enterSealed_eq, BitVec.getLsbD_or]
          simp [show i ≠ 0 by omega]
        · rfl
      · rfl
  unfold resolve
  dsimp only
  split
  · rfl
  · exact hstack _

/-- Resolutions raise VP_SEALED alone. -/
theorem resolveAll_raised_bit (p : SweepEntry → Bool) (out : SweepOutcome) (ev : Event) {i : Nat} (hi : 1 ≤ i) :
    (resolveAll p out ev).raised.getLsbD i = ev.raised.getLsbD i := by
  unfold resolveAll
  generalize ev.st.sweeps.filter p = l
  induction l generalizing ev with
  | nil => rfl
  | cons e l ih => rw [List.foldl_cons, ih, resolve_raised_bit _ _ _ _ hi]

/-- Drops raise SWEEP_DROPPED where there is one, and no cause above it. -/
theorem dropAll_raised_bit (p : SweepEntry → Bool) (out : SweepOutcome) (ev : Event) {i : Nat} (hi : 1 ≤ i) :
    (dropAll p out ev).raised.getLsbD i = (ev.raised.getLsbD i || (decide (i = 1) && ev.st.sweeps.any p)) := by
  unfold dropAll
  rw [Event.addCauseIf_raised]
  cases ev.st.sweeps.any p with
  | false => simpa using resolveAll_raised_bit p out ev hi
  | true =>
    rw [if_pos rfl, BitVec.getLsbD_or, resolveAll_raised_bit p out ev hi]
    have hbit : Cause.sweepDropped.set.getLsbD i = decide (i = 1) := by
      have hset : Cause.sweepDropped.set = BitVec.twoPow 8 1 := rfl
      rw [hset, BitVec.getLsbD_twoPow]
      simp [eq_comm]
    rw [hbit, Bool.and_true]

/-! ### A table without entries -/

theorem resolveAll_of_empty {ev : Event} (h : ev.st.sweeps = []) (p : SweepEntry → Bool) (out : SweepOutcome) :
    resolveAll p out ev = ev := by
  unfold resolveAll
  rw [h]
  rfl

theorem dropAll_of_empty {ev : Event} (h : ev.st.sweeps = []) (p : SweepEntry → Bool) (out : SweepOutcome) :
    dropAll p out ev = ev := by
  unfold dropAll
  rw [resolveAll_of_empty h, h]
  rfl

/-! ### What rows and restarts leave alone -/

/-- What the rows and restarts of a block leave alone between two points of its event. -/
structure RowFrame (a b : Event) : Prop where
  channels : b.st.ingest.channels = a.st.ingest.channels
  interval : b.st.ingest.interval = a.st.ingest.interval
  sweepCounter : b.st.sweepCounter = a.st.sweepCounter
  ports : b.st.ports = a.st.ports
  stackSerials : b.st.stackSerials = a.st.stackSerials
  reading : b.st.reading = a.st.reading
  alerts : b.st.alerts = a.st.alerts
  spread : b.st.spread = a.st.spread
  source : b.st.source = a.st.source
  record : b.st.record = a.st.record
  clock : b.st.clock = a.st.clock
  freeCount : b.st.freeCount = a.st.freeCount
  pending : b.st.pending = a.st.pending
  quiet : a.st.sweeps = [] → b.st.sweeps = [] ∧ a.st.SameWork b.st ∧ b.results = a.results

namespace RowFrame

variable {a b c : Event}

theorem refl (a : Event) : RowFrame a a :=
  ⟨rfl, rfl, rfl, rfl, rfl, rfl, rfl, rfl, rfl, rfl, rfl, rfl, rfl, fun h => ⟨h, .refl _, rfl⟩⟩

theorem trans (h : RowFrame a b) (g : RowFrame b c) : RowFrame a c :=
  ⟨g.channels.trans h.channels, g.interval.trans h.interval, g.sweepCounter.trans h.sweepCounter, g.ports.trans h.ports,
    g.stackSerials.trans h.stackSerials, g.reading.trans h.reading, g.alerts.trans h.alerts, g.spread.trans h.spread,
    g.source.trans h.source, g.record.trans h.record, g.clock.trans h.clock, g.freeCount.trans h.freeCount,
    g.pending.trans h.pending, fun hempty => by
      obtain ⟨hsweeps, hwork, hresults⟩ := h.quiet hempty
      obtain ⟨hsweeps', hwork', hresults'⟩ := g.quiet hsweeps
      exact ⟨hsweeps', hwork.trans hwork', hresults'.trans hresults⟩⟩

theorem of_aside (h : a.st.SameAside b.st)
    (hquiet : a.st.sweeps = [] → b.st.sweeps = [] ∧ a.st.SameWork b.st ∧ b.results = a.results) : RowFrame a b :=
  ⟨by rw [h.ingest], by rw [h.ingest], h.sweepCounter, h.ports, h.stackSerials, h.reading, h.alerts, h.spread, h.source,
    h.record, h.clock, h.freeCount, h.pending, hquiet⟩

theorem resolveAll (p : SweepEntry → Bool) (out : SweepOutcome) (ev : Event) : RowFrame ev (resolveAll p out ev) :=
  .of_aside (resolveAll_spec p out ev).1 fun h => by rw [resolveAll_of_empty h]; exact ⟨h, .refl _, rfl⟩

theorem dropAll (p : SweepEntry → Bool) (out : SweepOutcome) (ev : Event) : RowFrame ev (dropAll p out ev) :=
  .of_aside (dropAll_spec p out ev).1 fun h => by rw [dropAll_of_empty h]; exact ⟨h, .refl _, rfl⟩

theorem addCause (ev : Event) (cause : Cause) : RowFrame ev (ev.addCause cause) :=
  .of_aside (.refl _) fun h => ⟨h, .refl _, rfl⟩

theorem addCauseIf (ev : Event) (yes : Bool) (cause : Cause) : RowFrame ev (ev.addCauseIf yes cause) := by
  cases yes
  · exact .refl ev
  · exact .addCause ev cause

end RowFrame

end Sys2Proof.Machine

/-! PROOFS. Rows appended one after the other (R10, R11, R19, R20, R22): the ring, the ingest unit, the monitor and the
causes behind them. -/

namespace Sys2Proof.Machine

/-! ### Runs of rows -/

theorem newestRows_length_le (l : List RingRow) : (newestRows l).length ≤ Config.ringRows := by
  unfold newestRows
  rw [List.length_drop]
  omega

/-- Rows that join the newest ones join the run. -/
theorem newestRows_append (l m : List RingRow) : newestRows (newestRows l ++ m) = newestRows (l ++ m) := by
  unfold newestRows
  generalize Config.ringRows = size
  have hdrop : l.drop (l.length - size) ++ m = (l ++ m).drop (l.length - size) :=
    (List.drop_append_of_le_length (by omega)).symm
  rw [hdrop, List.drop_drop, List.length_drop, List.length_append]
  congr 1
  omega

theorem numberRows_append (first : Ssn) (rows more : List (List RingWord)) : numberRows first (rows ++ more) =
    numberRows first rows ++ numberRows (first + BitVec.ofNat 32 rows.length) more := by
  induction rows generalizing first with
  | nil => simp [numberRows]
  | cons w rows ih =>
    rw [List.cons_append, numberRows, ih, numberRows, List.cons_append, List.length_cons, ofNat_succ,
      show first + 1 + BitVec.ofNat 32 rows.length = first + (BitVec.ofNat 32 rows.length + 1) by
        rw [BitVec.add_assoc, BitVec.add_comm 1]]

theorem numberRows_length (first : Ssn) (rows : List (List RingWord)) : (numberRows first rows).length = rows.length := by
  induction rows generalizing first with
  | nil => rfl
  | cons w rows ih => rw [numberRows, List.length_cons, ih, List.length_cons]

/-! ### What one row leaves alone -/

theorem RowFrame.departOldest (ev : Event) : RowFrame ev (departOldest ev) := by
  unfold Machine.departOldest
  split
  · split
    · exact .refl ev
    next r rest _ =>
      have hring : RowFrame ev (ev.change fun s => { s with ring := rest }) :=
        ⟨rfl, rfl, rfl, rfl, rfl, rfl, rfl, rfl, rfl, rfl, rfl, rfl, rfl, fun h => ⟨h, ⟨rfl, rfl, rfl, rfl, rfl⟩, rfl⟩⟩
      exact hring.trans (.dropAll _ _ _)
  · exact .refl ev

theorem RowFrame.storeRow (ev : Event) (n : Ssn) (words : List RingWord) :
    RowFrame ev (ev.change (storeRow n words)) :=
  ⟨rfl, rfl, rfl, rfl, rfl, rfl, rfl, rfl, rfl, rfl, rfl, rfl, rfl, fun h => ⟨h, ⟨rfl, rfl, rfl, rfl, rfl⟩, rfl⟩⟩

theorem RowFrame.arrivalReport (n : Ssn) (wasEmpty : Bool) (ev : Event) : RowFrame ev (arrivalReport n wasEmpty ev) := by
  unfold Machine.arrivalReport
  dsimp only
  have hfirst : RowFrame ev (if wasEmpty then firstArrival n ev else ev) := by
    split
    · exact .dropAll _ _ _
    · exact .refl ev
  generalize (if wasEmpty then firstArrival n ev else ev) = ev1 at hfirst
  have harrive : RowFrame ev1 (ev1.change fun s => { s with sweeps := s.sweeps.map (SweepEntry.arrive s n) }) :=
    ⟨rfl, rfl, rfl, rfl, rfl, rfl, rfl, rfl, rfl, rfl, rfl, rfl, rfl,
      fun h => ⟨by simp [h], ⟨rfl, rfl, rfl, rfl, rfl⟩, rfl⟩⟩
  exact (hfirst.trans harrive).trans (.resolveAll _ _ _)

theorem RowFrame.handRow (n : Ssn) (gap : Bool) (words : List RingWord) (ev : Event) :
    RowFrame ev (handRow n gap words ev) := by
  refine RowFrame.trans (b := ev.change fun s =>
    { s with monitor := s.monitor.takeRow s.ingest.channels n gap words }) ?_ (.addCauseIf _ _ _)
  exact ⟨rfl, rfl, rfl, rfl, rfl, rfl, rfl, rfl, rfl, rfl, rfl, rfl, rfl, fun h => ⟨h, ⟨rfl, rfl, rfl, rfl, rfl⟩, rfl⟩⟩

theorem RowFrame.appendRow (gap : Bool) (ev : Event) (words : List RingWord) : RowFrame ev (appendRow gap ev words) :=
  (((RowFrame.departOldest ev).trans (.storeRow _ _ _)).trans (.arrivalReport _ _ _)).trans (.handRow _ _ _ _)

/-- Counters count, and an origin is set. -/
theorem RowFrame.ingest (ev : Event) (i : Ingest) (hchannels : i.channels = ev.st.ingest.channels)
    (hinterval : i.interval = ev.st.ingest.interval) : RowFrame ev (ev.change fun s => { s with ingest := i }) :=
  ⟨hchannels, hinterval, rfl, rfl, rfl, rfl, rfl, rfl, rfl, rfl, rfl, rfl, rfl,
    fun h => ⟨h, ⟨rfl, rfl, rfl, rfl, rfl⟩, rfl⟩⟩

/-! ### The causes of one row -/

theorem departOldest_raised_bit (ev : Event) {i : Nat} (hi : 2 ≤ i) :
    (departOldest ev).raised.getLsbD i = ev.raised.getLsbD i := by
  unfold departOldest
  split
  · split
    · rfl
    · refine (dropAll_raised_bit _ _ _ (by omega)).trans ?_
      simp [show i ≠ 1 by omega]
  · rfl

theorem arrivalReport_raised_bit (n : Ssn) (wasEmpty : Bool) (ev : Event) {i : Nat} (hi : 2 ≤ i) :
    (arrivalReport n wasEmpty ev).raised.getLsbD i = ev.raised.getLsbD i := by
  unfold arrivalReport
  dsimp only
  rw [resolveAll_raised_bit _ _ _ (by omega), Event.change_raised]
  split
  · refine (dropAll_raised_bit _ _ _ (by omega)).trans ?_
    simp [show i ≠ 1 by omega]
  · rfl

theorem handRow_raised_bit (n : Ssn) (gap : Bool) (words : List RingWord) (ev : Event) (i : Nat) :
    (handRow n gap words ev).raised.getLsbD i = (ev.raised.getLsbD i ||
      (decide (i = 2) && ev.st.monitor.rowRaises ev.st.ingest.channels gap words)) := by
  unfold handRow
  rw [Event.addCauseIf_raised, Event.change_raised]
  have hbit : Cause.channelChange.set.getLsbD i = decide (i = 2) := by
    have hset : Cause.channelChange.set = BitVec.twoPow 8 2 := rfl
    rw [hset, BitVec.getLsbD_twoPow]
    simp [eq_comm]
  cases ev.st.monitor.rowRaises ev.st.ingest.channels gap words with
  | false => simp
  | true => rw [if_pos rfl, BitVec.getLsbD_or, hbit, Bool.and_true]

/-- A row raises CHANNEL_CHANGE where the monitor does, and no cause above it. -/
theorem appendRow_raised_bit (gap : Bool) (ev : Event) (words : List RingWord) {i : Nat} (hi : 2 ≤ i) :
    (appendRow gap ev words).raised.getLsbD i = (ev.raised.getLsbD i ||
      (decide (i = 2) && ev.st.monitor.rowRaises ev.st.ingest.channels gap words)) := by
  have haside := arrivalReport_aside (nextSsn ev.st) ev.st.ring.isEmpty
    ((departOldest ev).change (storeRow (nextSsn ev.st) words))
  obtain ⟨hingest, hmonitor⟩ := departOldest_ingest ev
  unfold appendRow
  dsimp only
  rw [handRow_raised_bit, arrivalReport_raised_bit _ _ _ hi, Event.change_raised, departOldest_raised_bit _ hi,
    haside.monitor, haside.ingest]
  simp only [Event.change_st, storeRow, hingest, hmonitor]

/-! ### Many rows -/

/-- What rows appended at E leave between two points of an event. -/
structure AppendedRows (gap : Bool) (rows : List (List RingWord)) (o : StreamOrigin) (a b : Event) : Prop where
  ring : b.st.ring = newestRows (a.st.ring ++ numberRows o.expected rows)
  ingest : b.st.ingest = { a.st.ingest with
    origin := some { o with expected := o.expected + BitVec.ofNat 32 rows.length } }
  monitor : b.st.monitor = (takeRows a.st.ingest.channels gap a.st.monitor o.expected rows).1
  change : b.raised.getLsbD 2 =
    (a.raised.getLsbD 2 || (takeRows a.st.ingest.channels gap a.st.monitor o.expected rows).2)
  fault : b.raised.getLsbD 3 = a.raised.getLsbD 3
  frame : RowFrame a b
  fleets : b.st.fleets = a.st.fleets

theorem nextSsn_of_origin {s : State} {o : StreamOrigin} (h : s.ingest.origin = some o) : nextSsn s = o.expected := by
  rw [nextSsn, h]

theorem appendRows_appended (gap : Bool) (rows : List (List RingWord)) {ev : Event} {o : StreamOrigin}
    (horigin : ev.st.ingest.origin = some o) (hring : ev.st.ring.length ≤ Config.ringRows) :
    AppendedRows gap rows o ev (rows.foldl (appendRow gap) ev) := by
  induction rows generalizing ev o with
  | nil =>
    refine ⟨?_, ?_, rfl, by simp [takeRows], rfl, .refl ev, rfl⟩
    · rw [numberRows, List.append_nil]
      exact (newestRows_of_le hring).symm
    · have hzero : ({ o with expected := o.expected + BitVec.ofNat 32 0 } : StreamOrigin) = o := by
        rw [show BitVec.ofNat 32 0 = 0#32 from rfl, BitVec.add_zero]
      rw [List.length_nil, hzero, ← horigin]
      rfl
  | cons w rows ih =>
    have hnext := nextSsn_of_origin horigin
    obtain ⟨hring1, hingest1, hmonitor1⟩ := appendRow_spec gap ev w hring
    rw [horigin, hnext, Option.map_some] at hingest1
    rw [hnext] at hring1 hmonitor1
    have h := ih (ev := appendRow gap ev w) (o := { o with expected := o.expected + 1 }) (by rw [hingest1])
      (by rw [hring1]; exact newestRows_length_le _)
    have hframe := RowFrame.appendRow gap ev w
    rw [List.foldl_cons]
    refine ⟨?_, ?_, ?_, ?_, ?_, hframe.trans h.frame, h.fleets.trans (appendRow_fleets gap ev w)⟩
    · rw [h.ring, hring1, newestRows_append, List.append_assoc]
      rfl
    · rw [h.ingest, hingest1, List.length_cons, ofNat_succ]
      simp only [BitVec.add_assoc, BitVec.add_comm 1]
    · rw [h.monitor, hframe.channels, hmonitor1]
      rfl
    · rw [h.change, hframe.channels, hmonitor1, appendRow_raised_bit gap ev w (Nat.le_refl 2), takeRows]
      simp [Bool.or_assoc]
    · rw [h.fault, appendRow_raised_bit gap ev w (by omega)]
      simp

end Sys2Proof.Machine

/-! PROOFS. ROW BLOCKs that extend the ring, stale blocks and bad ones (R6 to R12, R22). -/

namespace Sys2Proof.Machine

/-! ### A block behind its gap (R10, R11) -/

/-- The gap rows of a gap of d rows. -/
def gapRun (channels d : Nat) : List (List RingWord) := List.replicate d (List.replicate channels gapWord)

theorem gapRun_length (channels d : Nat) : (gapRun channels d).length = d := List.length_replicate ..

/-- A block appended behind the rows of its gap. -/
def extendBlock (d : Nat) (rows : List (List SampleWord)) (ev : Event) : Event :=
  appendBlock rows (if d = 0 then ev else fillGap d ev)

theorem satAdd32_zero (c : Word32) : satAdd32 c 0 = c := by
  refine BitVec.eq_of_toNat_eq ?_
  rw [satAdd32_toNat]
  have := c.isLt
  omega

theorem addCause_raised_bit (ev : Event) (c : Cause) (i : Nat) :
    (ev.addCause c).raised.getLsbD i = (ev.raised.getLsbD i || decide (i = c.bit)) := by
  have hbit : c.set.getLsbD i = decide (i = c.bit) := by
    have hset : c.set = BitVec.twoPow 8 c.bit := by cases c <;> rfl
    have hlt : c.bit < 8 := by cases c <;> decide
    rw [hset, BitVec.getLsbD_twoPow]
    simp [eq_comm, hlt]
  rw [Event.addCause_raised, BitVec.getLsbD_or, hbit]

/-- What rows appended at E leave, where the counters of the ingest unit change on the way: gap rows d, then the rows of a
block. -/
structure AppendedBlock (d : Nat) (rows : List (List SampleWord)) (o : StreamOrigin) (a b : Event) : Prop where
  ring : b.st.ring = newestRows (a.st.ring ++
    numberRows o.expected (gapRun a.st.ingest.channels d ++ rows.map fun r => r.map normalise))
  ingest : b.st.ingest = { a.st.ingest with
    origin := some { o with expected := o.expected + BitVec.ofNat 32 (d + rows.length) }
    gapRows := satAdd32 a.st.ingest.gapRows d
    dropouts := satAdd32 a.st.ingest.dropouts (invalidWords rows) }
  taken :
    let filled := takeRows a.st.ingest.channels true a.st.monitor o.expected (gapRun a.st.ingest.channels d)
    let taken := takeRows a.st.ingest.channels false filled.1 (o.expected + BitVec.ofNat 32 d)
      (rows.map fun r => r.map normalise)
    b.st.monitor = taken.1 ∧ b.raised.getLsbD 2 = (a.raised.getLsbD 2 || filled.2 || taken.2)
  fault : b.raised.getLsbD 3 = (a.raised.getLsbD 3 || decide (1 ≤ d))
  frame : RowFrame a b
  fleets : b.st.fleets = a.st.fleets

/-- A block at E. -/
theorem appendBlock_appended (rows : List (List SampleWord)) {ev : Event} {o : StreamOrigin}
    (horigin : ev.st.ingest.origin = some o) (hring : ev.st.ring.length ≤ Config.ringRows) :
    AppendedBlock 0 rows o ev (appendBlock rows ev) := by
  have h := appendRows_appended false (rows.map fun r => r.map normalise) (o := o) (ev := ev.change fun s =>
    { s with ingest := { s.ingest with dropouts := satAdd32 s.ingest.dropouts (invalidWords rows) } }) horigin hring
  refine ⟨h.ring, h.ingest.trans ?_, ⟨?_, ?_⟩, ?_, (RowFrame.ingest ev
    { ev.st.ingest with dropouts := satAdd32 ev.st.ingest.dropouts (invalidWords rows) } rfl rfl).trans h.frame, h.fleets⟩
  · rw [List.length_map, Nat.zero_add, satAdd32_zero]
    rfl
  · rw [show o.expected + BitVec.ofNat 32 0 = o.expected from BitVec.add_zero _]
    exact h.monitor
  · rw [show o.expected + BitVec.ofNat 32 0 = o.expected from BitVec.add_zero _]
    exact h.change.trans (by simp [gapRun, takeRows])
  · exact h.fault.trans (by simp)

/-- The rows of a gap. -/
theorem fillGap_appended (d : Nat) {ev : Event} {o : StreamOrigin} (horigin : ev.st.ingest.origin = some o)
    (hring : ev.st.ring.length ≤ Config.ringRows) :
    let b := fillGap d ev
    b.st.ring = newestRows (ev.st.ring ++ numberRows o.expected (gapRun ev.st.ingest.channels d)) ∧
      b.st.ingest = { ev.st.ingest with
        origin := some { o with expected := o.expected + BitVec.ofNat 32 d }
        gapRows := satAdd32 ev.st.ingest.gapRows d } ∧
      b.st.monitor = (takeRows ev.st.ingest.channels true ev.st.monitor o.expected (gapRun ev.st.ingest.channels d)).1 ∧
      b.raised.getLsbD 2 = (ev.raised.getLsbD 2 ||
        (takeRows ev.st.ingest.channels true ev.st.monitor o.expected (gapRun ev.st.ingest.channels d)).2) ∧
      b.raised.getLsbD 3 = true ∧ RowFrame ev b ∧ b.st.fleets = ev.st.fleets := by
  intro b
  have h := appendRows_appended true (gapRun ev.st.ingest.channels d) (o := o) (ev := (ev.change fun s =>
    { s with ingest := { s.ingest with gapRows := satAdd32 s.ingest.gapRows d } }).addCause .streamFault) horigin hring
  refine ⟨h.ring, h.ingest.trans ?_, h.monitor, h.change.trans ?_, h.fault.trans ?_,
    ((RowFrame.ingest ev { ev.st.ingest with gapRows := satAdd32 ev.st.ingest.gapRows d } rfl rfl).trans
      (.addCause _ .streamFault)).trans h.frame, h.fleets⟩
  · rw [gapRun, List.length_replicate]
    rfl
  · rw [addCause_raised_bit]
    simp [Cause.bit]
  · rw [addCause_raised_bit]
    simp [Cause.bit]

/-- A block up to 4,096 rows behind E, or at E. -/
theorem extendBlock_appended (d : Nat) (rows : List (List SampleWord)) {ev : Event} {o : StreamOrigin}
    (horigin : ev.st.ingest.origin = some o) (hring : ev.st.ring.length ≤ Config.ringRows) :
    AppendedBlock d rows o ev (extendBlock d rows ev) := by
  unfold extendBlock
  split
  next hzero =>
    subst hzero
    exact appendBlock_appended rows horigin hring
  next hpos =>
    obtain ⟨hring1, hingest1, hmonitor1, hchange1, hfault1, hframe1, hfleets1⟩ := fillGap_appended d horigin hring
    have h := appendBlock_appended rows (ev := fillGap d ev)
      (o := { o with expected := o.expected + BitVec.ofNat 32 d }) (by rw [hingest1])
      (by rw [hring1]; exact newestRows_length_le _)
    obtain ⟨hmonitor, hchange⟩ := h.taken
    rw [hframe1.channels] at hmonitor hchange
    refine ⟨?_, ?_, ⟨?_, ?_⟩, ?_, hframe1.trans h.frame, h.fleets.trans hfleets1⟩
    · rw [h.ring, hring1, newestRows_append, numberRows_append o.expected (gapRun ev.st.ingest.channels d),
        gapRun_length, ← List.append_assoc]
      rfl
    · rw [h.ingest, hingest1]
      simp only [Nat.zero_add, BitVec.ofNat_add, BitVec.add_assoc, satAdd32_zero]
    · rw [hmonitor, hmonitor1, show ({ o with expected := o.expected + BitVec.ofNat 32 d } : StreamOrigin).expected +
        BitVec.ofNat 32 0 = o.expected + BitVec.ofNat 32 d from BitVec.add_zero _]
      rfl
    · rw [hchange, hchange1, hmonitor1, show ({ o with expected := o.expected + BitVec.ofNat 32 d } :
        StreamOrigin).expected + BitVec.ofNat 32 0 = o.expected + BitVec.ofNat 32 d from BitVec.add_zero _]
      simp [gapRun, takeRows]
    · rw [h.fault, hfault1]
      simp [show 1 ≤ d by omega]

/-! ### Blocks as they are taken (R5 to R12) -/

/-- The part with a frame taken from the Spread Link. -/
def State.takeBlock (s : State) (rest : List Frame) : State := { s with spread := { s.spread with input := rest } }

theorem exec_rowBlock {s : State} {tag : Byte} {p : List Byte} {rest : List Frame} (h : SpreadFrame s 1 tag p rest) :
    exec .rowBlock s = .next (handleRowBlock p (Event.start (s.takeBlock rest))).finish := by
  show execRowBlock s = _
  unfold execRowBlock State.takeSpread
  rw [show s.spread.input = _ from h]
  rfl

theorem exec_streamStart {s : State} {tag : Byte} {p : List Byte} {rest : List Frame} (h : SpreadFrame s 2 tag p rest) :
    exec .streamStart s = .next (handleStreamStart (wordAt p 0) (Event.start (s.takeBlock rest))).finish := by
  show execStreamStart s = _
  unfold execStreamStart State.takeSpread
  rw [show s.spread.input = _ from h]
  rfl

theorem readRows_length (n c : Nat) (p : List Byte) : (readRows n c p).length = n := by
  rw [readRows, List.length_map, chunks_length]

section Good

variable {s : State} {p : List Byte} {first : Ssn} {n : Nat}

theorem GoodBlock.rows (h : GoodBlock s p first n) :
    blockRows p = (readRows n s.ingest.channels p).map fun r => r.map normalise := by
  obtain ⟨-, hchannels, -, hn⟩ := h
  rw [blockRows, hchannels, hn]

/-- A block that passes R6 and R7 is placed by the origin and E. -/
theorem handleRowBlock_of_good (h : GoodBlock s p first n) {ev : Event} (hev : ev.st.ingest = s.ingest) :
    handleRowBlock p ev = s.ingest.origin.elim
      (appendBlock (readRows n s.ingest.channels p) (ev.change fun s =>
        { s with ingest := { s.ingest with origin := some { origin := first, expected := first } } }))
      fun o => placeBlock first o.expected (readRows n s.ingest.channels p) ev := by
  obtain ⟨hgood, hchannels, hfirst, hn⟩ := h
  unfold handleRowBlock
  rw [hgood, hchannels, hfirst, hn, hev]
  dsimp only
  rw [if_neg (by decide), if_neg (by simp)]
  cases s.ingest.origin <;> rfl

end Good

theorem placeBlock_of_ahead {first expected : Ssn} {d : Nat} (hd : (first - expected).toNat = d) (hle : d ≤ 4096)
    (rows : List (List SampleWord)) (ev : Event) : placeBlock first expected rows ev = extendBlock d rows ev := by
  unfold placeBlock extendBlock
  dsimp only
  rw [hd]
  split
  · rfl
  · exact if_pos hle

theorem placeBlock_of_far {first expected : Ssn} (hlo : 4097 ≤ (first - expected).toNat)
    (hhi : (first - expected).toNat ≤ 2147483648) (rows : List (List SampleWord)) (ev : Event) :
    placeBlock first expected rows ev = appendBlock rows (restartStream first (ev.addCause .streamFault)) := by
  unfold placeBlock
  dsimp only
  rw [if_neg (by omega), if_neg (by show ¬ (first - expected).toNat ≤ 4096; omega), if_pos hhi]

theorem placeBlock_of_behind {first expected : Ssn} {behind : Nat} (hbehind : (expected - first).toNat = behind)
    (hlo : 1 ≤ behind) (hhi : behind ≤ 2147483647) (rows : List (List SampleWord)) (ev : Event) :
    placeBlock first expected rows ev =
      appendBlock (rows.drop behind) (countStale (min behind rows.length) ev) := by
  have hahead : (first - expected).toNat = 4294967296 - behind := by bv_omega
  unfold placeBlock
  dsimp only
  rw [if_neg (by omega), if_neg (by show ¬ (first - expected).toNat ≤ 4096; omega), if_neg (by omega), hbehind]

/-! ### The end of a block's event -/

theorem Event.finish_pending_bit {a b : Event} (h : RowFrame a b) (i : Nat) :
    b.finish.alerts.pending.getLsbD i = (a.st.alerts.pending.getLsbD i || b.raised.getLsbD i) := by
  rw [Event.finish_alerts, h.alerts]
  exact BitVec.getLsbD_or

/-- A block's event leaves what no row touches. -/
theorem RowFrame.sameButForRows {s : State} {rest : List Frame} {b : Event}
    (h : RowFrame (Event.start (s.takeBlock rest)) b) : SameButForRows s b.finish := by
  have hsource : b.finish.source.input = b.st.source.input := by
    unfold Event.finish
    rw [State.raise_eq, sendResults_eq]
  have hrecord : b.finish.record.input = b.st.record.input := by
    unfold Event.finish
    rw [(State.raise_record _ _).1, sendResults_eq]
  refine ⟨?_, ?_, ?_, ?_, ?_, ?_, ?_, ?_, ?_, ?_, ?_, ?_, fun hempty => ?_⟩
  · rw [Event.finish_ingest]; exact h.channels
  · rw [Event.finish_ingest]; exact h.interval
  · rw [Event.finish_sweepCounter]; exact h.sweepCounter
  · rw [Event.finish_ports]; exact h.ports
  · rw [Event.finish_stackSerials]; exact h.stackSerials
  · rw [Event.finish_reading]; exact h.reading
  · rw [Event.finish_alerts, h.alerts]; rfl
  · rw [hsource, h.source]; rfl
  · rw [hrecord, h.record]; rfl
  · rw [Event.finish_clock]; exact h.clock
  · rw [Event.finish_freeCount]; exact h.freeCount
  · rw [Event.finish_pending]; exact h.pending
  · obtain ⟨hsweeps, hwork, hresults⟩ := h.quiet hempty
    have hnone : b.results = [] := hresults
    refine ⟨by rw [Event.finish_sweeps, hsweeps], by rw [Event.finish_pilots]; exact hwork.pilots,
      by rw [Event.finish_lanes]; exact hwork.lanes, by rw [Event.finish_slots]; exact hwork.slots,
      by rw [Event.finish_harvestQueue]; exact hwork.harvestQueue,
      by rw [Event.finish_sealOrders]; exact hwork.sealOrders, ?_⟩
    unfold Event.finish
    rw [hnone, State.raise_eq]
    exact h.source

theorem RowFrame.spread_finish {s : State} {rest : List Frame} {b : Event}
    (h : RowFrame (Event.start (s.takeBlock rest)) b) : b.finish.spread = { s.spread with input := rest } := by
  rw [Event.finish_spread]
  exact h.spread

/-- Settles O35: the block behind its gap, or behind the origin it sets. -/
theorem rowBlocksExtendTheRing : Obligations.RowBlocksExtendTheRing := by
  intro s tag p rest first n hframe hgood hring dropouts
  rw [exec_rowBlock hframe, handleRowBlock_of_good hgood (ev := Event.start (s.takeBlock rest)) rfl]
  refine ⟨fun o d ho hd hle => ?_, fun hnone => ?_⟩
  · intro gap filled taken
    have h := extendBlock_appended d (readRows n s.ingest.channels p) (ev := Event.start (s.takeBlock rest)) ho hring
    have hstart : o.expected + BitVec.ofNat 32 d = first := by
      rw [← hd, BitVec.ofNat_toNat, BitVec.setWidth_eq]
      bv_omega
    rw [ho, Option.elim_some, placeBlock_of_ahead hd hle]
    obtain ⟨hmonitor, hchange⟩ := h.taken
    rw [hstart, ← hgood.rows] at hmonitor hchange
    refine ⟨_, rfl, ?_, ?_, h.frame.spread_finish, h.frame.sameButForRows, ?_, ?_, ?_, ?_⟩
    · rw [Event.finish_ring, h.ring, ← hgood.rows]
      rfl
    · rw [Event.finish_ingest, h.ingest, readRows_length, BitVec.ofNat_add, ← BitVec.add_assoc, hstart]
      rfl
    · rw [Event.finish_fleets, h.fleets]
      rfl
    · rw [Event.finish_pending_bit h.frame, h.fault]
      simp [State.takeBlock]
    · rw [Event.finish_monitor, hmonitor]
      rfl
    · rw [Event.finish_pending_bit h.frame, hchange]
      simp [State.takeBlock, Bool.or_assoc]
      rfl
  · intro taken
    rw [hnone, Option.elim_none]
    have h := appendBlock_appended (readRows n s.ingest.channels p) (o := { origin := first, expected := first })
      (ev := (Event.start (s.takeBlock rest)).change fun s =>
        { s with ingest := { s.ingest with origin := some { origin := first, expected := first } } }) rfl hring
    have hframe := (RowFrame.ingest (Event.start (s.takeBlock rest))
      { s.ingest with origin := some { origin := first, expected := first } } rfl rfl).trans h.frame
    obtain ⟨hmonitor, hchange⟩ := h.taken
    rw [show first + BitVec.ofNat 32 0 = first from BitVec.add_zero _, ← hgood.rows] at hmonitor hchange
    refine ⟨_, rfl, ?_, ?_, hframe.spread_finish, hframe.sameButForRows, ?_, ?_, ?_, ?_⟩
    · rw [Event.finish_ring, h.ring, ← hgood.rows]
      rfl
    · rw [Event.finish_ingest, h.ingest, readRows_length, Nat.zero_add, satAdd32_zero]
      rfl
    · rw [Event.finish_fleets, h.fleets]
      rfl
    · rw [Event.finish_pending_bit hframe, h.fault]
      simp [State.takeBlock]
    · rw [Event.finish_monitor, hmonitor]
      rfl
    · rw [Event.finish_pending_bit hframe, hchange]
      simp [State.takeBlock, gapRun, takeRows]
      rfl

/-! ### Stale blocks and bad ones (R6, R7, R12) -/

theorem handleRowBlock_of_bad {s : State} {p : List Byte}
    (hbad : p.length < 7 ∨ ¬ (1 ≤ byteAt p 4 ∧ byteAt p 4 ≤ 16) ∨ ¬ (1 ≤ halfAt p 5 ∧ halfAt p 5 ≤ 1024) ∨
      8192 < byteAt p 4 * halfAt p 5 ∨ p.length ≠ 7 + 4 * (byteAt p 4 * halfAt p 5) ∨ halfAt p 5 ≠ s.ingest.channels)
    {ev : Event} (hev : ev.st.ingest = s.ingest) : handleRowBlock p ev = discardBlock ev := by
  unfold handleRowBlock
  by_cases hmalformed : blockMalformed p = true
  · rw [if_pos hmalformed]
  · have hchannels : halfAt p 5 ≠ ev.st.ingest.channels := by
      rw [hev]
      unfold blockMalformed at hmalformed
      rw [decide_eq_true_eq] at hmalformed
      omega
    rw [if_neg hmalformed, if_pos hchannels]

theorem discardBlock_finish (s : State) : (discardBlock (Event.start s)).finish =
    State.raise { s with ingest := { s.ingest with discarded := satAdd32 s.ingest.discarded 1 } } 0x08#8 :=
  Event.finish_change_addCause s _ .streamFault

theorem blockRows_drop {s : State} {p : List Byte} {first : Ssn} {n : Nat} (h : GoodBlock s p first n) (k : Nat) :
    (blockRows p).drop k = ((readRows n s.ingest.channels p).drop k).map fun r => r.map normalise := by
  rw [h.rows, List.map_drop]

/-- The stale rows of a block are counted, and its other rows appended at E. -/
theorem appendStale_appended (k : Nat) (rows : List (List SampleWord)) {ev : Event} {o : StreamOrigin}
    (horigin : ev.st.ingest.origin = some o) (hring : ev.st.ring.length ≤ Config.ringRows) :
    AppendedBlock 0 rows o (countStale k ev) (appendBlock rows (countStale k ev)) ∧ RowFrame ev (countStale k ev) :=
  ⟨appendBlock_appended rows (ev := countStale k ev) horigin hring,
    (RowFrame.ingest ev { ev.st.ingest with staleRows := satAdd32 ev.st.ingest.staleRows k } rfl rfl).trans
      (.addCause _ .streamFault)⟩

/-- Settles O36: a bad block is discarded, and a block before E is appended without its stale rows. -/
theorem staleAndBadBlocks : Obligations.StaleAndBadBlocks := by
  refine ⟨fun s tag p rest hframe hbad => ?_, fun s tag p rest first n behind o hframe hgood hring ho hbehind hlo hhi => ?_⟩
  · rw [exec_rowBlock hframe, handleRowBlock_of_bad (s := s) hbad (ev := Event.start (s.takeBlock rest)) rfl,
      discardBlock_finish]
    rfl
  · intro taken
    rw [exec_rowBlock hframe, handleRowBlock_of_good hgood (ev := Event.start (s.takeBlock rest)) rfl, ho,
      Option.elim_some, placeBlock_of_behind hbehind hlo hhi, readRows_length]
    obtain ⟨h, hstale⟩ := appendStale_appended (min behind n) ((readRows n s.ingest.channels p).drop behind)
      (ev := Event.start (s.takeBlock rest)) ho hring
    have hall := hstale.trans h.frame
    have hrows := blockRows_drop hgood behind
    obtain ⟨hmonitor, hchange⟩ := h.taken
    rw [show o.expected + BitVec.ofNat 32 0 = o.expected from BitVec.add_zero _, ← hrows] at hmonitor hchange
    refine ⟨_, rfl, ?_, ?_, hall.spread_finish, hall.sameButForRows, ?_, ?_, ?_, ?_⟩
    · rw [Event.finish_ring, h.ring, ← hrows]
      rfl
    · rw [Event.finish_ingest, h.ingest, List.length_drop, readRows_length, Nat.zero_add, satAdd32_zero]
      rfl
    · rw [Event.finish_fleets, h.fleets]
      rfl
    · rw [Event.finish_monitor, hmonitor]
      rfl
    · rw [Event.finish_pending_bit hall, hchange, countStale, addCause_raised_bit]
      simp [State.takeBlock, gapRun, takeRows, Cause.bit]
      rfl
    · rw [Event.finish_pending_bit hall, h.fault, countStale, addCause_raised_bit]
      simp [Cause.bit]

end Sys2Proof.Machine

/-! PROOFS. What one appended row resolves (R72, R73, R80, R81), and the SWEEP RESULTs of a block's event (R170). -/

namespace Sys2Proof.Machine

/-! ### No entry meets the condition -/

theorem resolveAll_of_none {p : SweepEntry → Bool} {ev : Event} (h : ∀ e ∈ ev.st.sweeps, p e = false)
    (out : SweepOutcome) : resolveAll p out ev = ev := by
  have hnone : ev.st.sweeps.filter p = [] := List.filter_eq_nil_iff.2 fun e he => by simp [h e he]
  unfold resolveAll
  rw [hnone]
  rfl

/-- No WAITING entry has an outcome that rejects it: R72's table resolved it when the outcome was settled. -/
def NoneRejected (s : State) : Prop := ∀ e ∈ s.sweeps, e.stage = .waiting → e.isRejected = false

theorem SweepEntry.arrive_isRejected (s : State) (n : Ssn) (e : SweepEntry) :
    (e.arrive s n).isRejected = e.isRejected := by
  unfold SweepEntry.arrive
  split <;> rfl

theorem SweepEntry.waiting_of_arrive {s : State} {n : Ssn} {e : SweepEntry} (h : (e.arrive s n).stage = .waiting) :
    e.stage = .waiting := by
  unfold SweepEntry.arrive at h
  split at h
  · dsimp only at h
    split at h
    · cases h
    · exact h
  · exact h

theorem NoneRejected.rejects {s : State} (h : NoneRejected s) (n m : Ssn) {e : SweepEntry} (he : e ∈ s.sweeps) (t : State) :
    rowRejects n (e.arrive t m) = false := by
  unfold rowRejects
  by_cases hstage : (e.arrive t m).stage = .waiting
  · rw [SweepEntry.arrive_isRejected, h e he (SweepEntry.waiting_of_arrive hstage)]
    simp
  · simp [hstage]

/-! ### One row -/

theorem any_false {α : Type} (l : List α) : (l.any fun _ => false) = false := by simp

theorem dropAll_dropped (p : SweepEntry → Bool) (out : SweepOutcome) (ev : Event) :
    (dropAll p out ev).raised.getLsbD 1 = (ev.raised.getLsbD 1 || ev.st.sweeps.any p) := by
  rw [dropAll_raised_bit p out ev (Nat.le_refl 1)]
  simp

/-- The arrival report where no entry is rejected: it resolves what a first arrival drops, and no more. -/
theorem arrivalReport_resolutions {ev : Event} (hd : DistinctNumbers ev.st) (hsettled : NoneRejected ev.st) (n : Ssn)
    (wasEmpty : Bool) :
    let drops : SweepEntry → Bool := fun e => wasEmpty && (decide (e.stage = .waiting) && !ssnAtOrBefore n e.t0)
    Resolutions ev (arrivalReport n wasEmpty ev) .droppedRestart (ev.st.sweeps.filter drops) ∧
      (arrivalReport n wasEmpty ev).raised.getLsbD 1 = (ev.raised.getLsbD 1 || ev.st.sweeps.any drops) := by
  intro drops
  have hfirst : Resolutions ev (if wasEmpty then firstArrival n ev else ev) .droppedRestart (ev.st.sweeps.filter drops) ∧
      (if wasEmpty then firstArrival n ev else ev).raised.getLsbD 1 = (ev.raised.getLsbD 1 || ev.st.sweeps.any drops) ∧
      (if wasEmpty then firstArrival n ev else ev).st.sweeps = ev.st.sweeps.filter fun e => !drops e := by
    cases wasEmpty with
    | false =>
      have hnone : ev.st.sweeps.filter drops = [] := List.filter_eq_nil_iff.2 fun e _ => by simp [drops]
      refine ⟨?_, by simp [drops], by simp [drops]⟩
      rw [hnone]
      exact .nothing (.refl _) rfl rfl _
    | true =>
      exact ⟨.dropAll hd _ (by decide), dropAll_dropped _ _ _, (dropAll_spec _ _ _).2.2.1 hd⟩
  obtain ⟨hres, hbit, hsweeps⟩ := hfirst
  unfold arrivalReport
  dsimp only
  generalize (if wasEmpty then firstArrival n ev else ev) = ev1 at hres hbit hsweeps
  rw [resolveAll_of_none]
  · exact ⟨hres.behind ⟨rfl, rfl, rfl, rfl, rfl⟩ rfl rfl, hbit⟩
  · intro x hx
    rw [Event.change_st, hsweeps] at hx
    obtain ⟨e, he, rfl⟩ := List.mem_map.1 hx
    exact hsettled.rejects n n (List.mem_filter.1 he).1 ev1.st

/-- The departure of a row resolves what the row's departure drops. -/
theorem departOldest_resolutions {ev : Event} (hd : DistinctNumbers ev.st) (hring : ev.st.ring ≠ []) (n : Ssn) :
    Resolutions ev (departOldest ev) .droppedOverrun (ev.st.sweeps.filter (rowDrops ev.st.ring n)) ∧
      (departOldest ev).raised.getLsbD 1 = (ev.raised.getLsbD 1 || ev.st.sweeps.any (rowDrops ev.st.ring n)) := by
  unfold departOldest
  cases hr : ev.st.ring with
  | nil => exact absurd hr hring
  | cons r rest =>
    dsimp only
    split
    next hfull =>
      have hdrops : rowDrops (r :: rest) n = fun e => e.isDroppable && ssnAtOrBefore e.t0 r.ssn := by
        funext e
        rw [rowDrops, decide_eq_true hfull, Bool.true_and]
      have hchanged : Resolutions (ev.change fun s => { s with ring := rest })
          (departureReport r.ssn (ev.change fun s => { s with ring := rest })) .droppedOverrun
          (ev.st.sweeps.filter fun e => e.isDroppable && ssnAtOrBefore e.t0 r.ssn) :=
        .dropAll (ev := ev.change fun s => { s with ring := rest }) hd _ (by decide)
      rw [hdrops]
      exact ⟨hchanged.before ⟨rfl, rfl, rfl, rfl, rfl⟩ rfl rfl, dropAll_dropped _ _ _⟩
    next hroom =>
      have hdrops : rowDrops (r :: rest) n = fun _ => false := by
        funext e
        rw [rowDrops, decide_eq_false hroom, Bool.false_and]
      rw [hdrops]
      refine ⟨?_, by simp⟩
      rw [List.filter_eq_nil_iff.2 (by simp)]
      exact .nothing (.refl _) rfl rfl _

theorem handRow_resolutions (n : Ssn) (gap : Bool) (words : List RingWord) (ev : Event) :
    ev.st.SameWork (handRow n gap words ev).st ∧ (handRow n gap words ev).results = ev.results ∧
      ∀ i < 2, (handRow n gap words ev).raised.getLsbD i = ev.raised.getLsbD i := by
  refine ⟨?_, ?_, fun i hi => ?_⟩
  · rw [handRow_st]
    exact ⟨rfl, rfl, rfl, rfl, rfl⟩
  · simp [handRow]
  · rw [handRow_raised_bit]
    simp [show i ≠ 2 by omega]

/-- The outcome of a row's drops: by a departure, or by the first arrival. -/
def rowOutcome (ring : List RingRow) : SweepOutcome := if ring = [] then .droppedRestart else .droppedOverrun

/-- What one row resolves: its departure's drops, or its first arrival's. -/
theorem appendRow_resolutions (gap : Bool) {ev : Event} (words : List RingWord) (hd : DistinctNumbers ev.st)
    (hsettled : NoneRejected ev.st) :
    Resolutions ev (appendRow gap ev words) (rowOutcome ev.st.ring)
        (ev.st.sweeps.filter (rowDrops ev.st.ring (nextSsn ev.st))) ∧
      (appendRow gap ev words).raised.getLsbD 1 =
        (ev.raised.getLsbD 1 || ev.st.sweeps.any (rowDrops ev.st.ring (nextSsn ev.st))) := by
  unfold appendRow
  dsimp only
  generalize nextSsn ev.st = n
  by_cases hring : ev.st.ring = []
  · rw [departOldest_of_empty hring, hring]
    obtain ⟨hres, hbit⟩ := arrivalReport_resolutions (ev := ev.change (storeRow n words)) hd hsettled n true
    obtain ⟨hwork, hresults, hbits⟩ := handRow_resolutions n gap words
      (arrivalReport n true (ev.change (storeRow n words)))
    refine ⟨?_, (hbits 1 (by omega)).trans hbit⟩
    exact (hres.before (a := ev) ⟨rfl, rfl, rfl, rfl, rfl⟩ rfl rfl).behind hwork hresults (hbits 0 (by omega))
  · have hempty : ev.st.ring.isEmpty = false := by simpa using hring
    obtain ⟨hres, hbit⟩ := departOldest_resolutions hd hring n
    have hsweeps := departOldest_sweeps hd n hring
    have hd1 : DistinctNumbers ((departOldest ev).change (storeRow n words)).st := hd.of_filter hsweeps
    have hsettled1 : NoneRejected ((departOldest ev).change (storeRow n words)).st := fun e he => by
      have he' : e ∈ (departOldest ev).st.sweeps := he
      rw [hsweeps] at he'
      exact hsettled e (List.mem_filter.1 he').1
    obtain ⟨hres2, hbit2⟩ := arrivalReport_resolutions hd1 hsettled1 n false
    simp only [Bool.false_and, List.filter_false, any_false, Bool.or_false] at hres2 hbit2
    rw [hempty, rowOutcome, if_neg hring]
    obtain ⟨hwork2, hresults2, hsealed2⟩ := hres2.of_nil
    obtain ⟨hwork, hresults, hbits⟩ := handRow_resolutions n gap words
      (arrivalReport n false ((departOldest ev).change (storeRow n words)))
    have hstored : Resolutions ev ((departOldest ev).change (storeRow n words)) .droppedOverrun
        (ev.st.sweeps.filter (rowDrops ev.st.ring n)) := hres.behind ⟨rfl, rfl, rfl, rfl, rfl⟩ rfl rfl
    exact ⟨(hstored.behind hwork2 hresults2 hsealed2).behind hwork hresults (hbits 0 (by omega)),
      (hbits 1 (by omega)).trans (hbit2.trans hbit)⟩

/-! ### The end of the event -/

theorem start_raised_bit (s : State) (i : Nat) : (Event.start s).raised.getLsbD i = false :=
  BitVec.getLsbD_zero

/-- The resolutions of a block's event, as the event ends. -/
theorem Resolutions.finish {s : State} {rest : List Frame} {b : Event} {out : SweepOutcome} {gone : List SweepEntry}
    (h : Resolutions (Event.start (s.takeBlock rest)) b out gone) (hframe : RowFrame (Event.start (s.takeBlock rest)) b) :
    ResolvedInOneEvent s b.finish out gone := by
  have hstart : s.SameWork (s.takeBlock rest) := ⟨rfl, rfl, rfl, rfl, rfl⟩
  have hall := hstart.resolvedAllAs out gone
  have hwork := hall.trans h.work
  have hresults : b.results = gone.map fun e => e.result out none := h.results.trans (List.nil_append _)
  have hsource : b.finish.source = (b.results.foldl State.sendResult b.st).source := by
    unfold Event.finish
    rw [State.raise_eq]
  have hlink : b.st.source = s.source := hframe.source
  refine ⟨?_, ?_, ?_, ?_, ?_, ?_, fun hup => ?_, fun hdown => ?_, ?_⟩
  · rw [Event.finish_pilots]; exact hwork.pilots
  · rw [Event.finish_lanes]; exact hwork.lanes
  · rw [Event.finish_slots]; exact hwork.slots
  · rw [Event.finish_harvestQueue]; exact hwork.harvestQueue
  · rw [Event.finish_sealOrders]; exact hwork.sealOrders
  · rw [hsource, sendResults_eq, hresults, List.length_map, hlink]
  · rw [hsource, sendResults_output (by rw [hlink]; exact hup), hlink, hresults]
  · rw [hsource, sendResults_down (by rw [hlink]; exact hdown), hlink]
  · rw [Event.finish_pending_bit hframe, h.sealed, Event.start_st, hall.harvestQueue]
    rw [start_raised_bit, Bool.false_or]
    rfl

end Sys2Proof.Machine

/-! PROOFS. The sweep table behind the rows of a block (R72, R73, R80, R81, R92). -/

namespace Sys2Proof.Machine

/-! ### An entry behind several rows -/

/-- The rows drop the entry: by a departure, or by the first arrival into an empty ring (R80, R81). -/
def runDrops (ring : List RingRow) (start : Ssn) (rows : Nat) (e : SweepEntry) : Bool :=
  match ring with
  | [] => decide (1 ≤ rows) && decide (e.stage = .waiting) && !ssnAtOrBefore start e.t0
  | _ => e.isDroppable && (ring.take (ring.length + rows - Config.ringRows)).any fun row => ssnAtOrBefore e.t0 row.ssn

/-- The entry behind the arrival of the rows from an SSN on (R73, R92). -/
def SweepEntry.arrivedBy (clock : Nat) (start : Ssn) (rows : Nat) (e : SweepEntry) : SweepEntry :=
  if (e.dataRow - start).toNat < rows ∧ e.dataComplete = false then
    { e with
      dataComplete := true
      timer := if e.qc = .pending then
        some { length := e.copy.reportTimeout, deadline := clock + e.copy.reportTimeout } else e.timer
      stage := if e.proceeds && decide (e.stage = .waiting) then .ready else e.stage }
  else e

namespace SweepEntry

variable (clock : Nat) (start : Ssn) (rows : Nat) (e : SweepEntry)

theorem arrivedBy_zero : e.arrivedBy clock start 0 = e := by
  rw [arrivedBy, if_neg (by omega)]

theorem arrivedBy_number : (e.arrivedBy clock start rows).number = e.number := by
  unfold arrivedBy
  split <;> rfl

theorem arrivedBy_t0 : (e.arrivedBy clock start rows).t0 = e.t0 := by
  unfold arrivedBy
  split <;> rfl

theorem arrivedBy_isRejected : (e.arrivedBy clock start rows).isRejected = e.isRejected := by
  unfold arrivedBy
  split <;> rfl

theorem arrivedBy_stage : (e.arrivedBy clock start rows).stage = e.stage ∨
    e.stage = .waiting ∧ (e.arrivedBy clock start rows).stage = .ready := by
  unfold arrivedBy
  split
  · dsimp only
    split
    next h =>
      rw [Bool.and_eq_true, decide_eq_true_eq] at h
      exact .inr ⟨h.2, rfl⟩
    · exact .inl rfl
  · exact .inl rfl

theorem arrivedBy_isDroppable : (e.arrivedBy clock start rows).isDroppable = e.isDroppable := by
  unfold isDroppable
  rcases arrivedBy_stage clock start rows e with h | ⟨hbefore, hafter⟩
  · rw [h]
  · rw [hbefore, hafter]
    rfl

theorem waiting_of_arrivedBy (h : (e.arrivedBy clock start rows).stage = .waiting) : e.stage = .waiting := by
  rcases arrivedBy_stage clock start rows e with hsame | ⟨hbefore, -⟩
  · rw [← hsame, h]
  · exact hbefore

end SweepEntry

theorem sub_toNat_eq_iff {row start : Ssn} {k : Nat} (hk : k < 4294967296) :
    (row - start).toNat = k ↔ row = start + BitVec.ofNat 32 k := by
  constructor
  · rintro rfl
    rw [BitVec.ofNat_toNat, BitVec.setWidth_eq]
    bv_omega
  · rintro rfl
    rw [BitVec.add_comm, BitVec.add_sub_cancel, BitVec.toNat_ofNat, Nat.mod_eq_of_lt hk]

/-- The next row arrives. -/
theorem SweepEntry.arrive_arrivedBy (s : State) (start : Ssn) {k : Nat} (hk : k < 4294967296) (e : SweepEntry) :
    (e.arrivedBy s.clock start k).arrive s (start + BitVec.ofNat 32 k) = e.arrivedBy s.clock start (k + 1) := by
  by_cases hbefore : (e.dataRow - start).toNat < k ∧ e.dataComplete = false
  · have hcomplete : (e.arrivedBy s.clock start k).dataComplete = true := by rw [arrivedBy, if_pos hbefore]
    have harrived : (e.arrivedBy s.clock start k).arrive s (start + BitVec.ofNat 32 k) = e.arrivedBy s.clock start k :=
      if_neg fun h => by rw [hcomplete] at h; exact absurd h.2 (by decide)
    have hlater : e.arrivedBy s.clock start (k + 1) = e.arrivedBy s.clock start k :=
      (if_pos ⟨by omega, hbefore.2⟩).trans (if_pos hbefore).symm
    exact harrived.trans hlater.symm
  · have hsame : e.arrivedBy s.clock start k = e := if_neg hbefore
    have hiff : (e.dataRow = start + BitVec.ofNat 32 k ∧ e.dataComplete = false) ↔
        (e.dataRow - start).toNat < k + 1 ∧ e.dataComplete = false := by
      rw [← sub_toNat_eq_iff hk]
      refine and_congr_left fun hincomplete => ?_
      have : ¬ (e.dataRow - start).toNat < k := fun h => hbefore ⟨h, hincomplete⟩
      omega
    rw [hsame, arrive, arrivedBy]
    by_cases h : e.dataRow = start + BitVec.ofNat 32 k ∧ e.dataComplete = false
    · rw [if_pos h, if_pos (hiff.1 h)]
      rfl
    · rw [if_neg h, if_neg fun h' => h (hiff.2 h')]

theorem runDrops_zero {ring : List RingRow} (hring : ring.length ≤ Config.ringRows) (start : Ssn) (e : SweepEntry) :
    runDrops ring start 0 e = false := by
  cases ring with
  | nil => rfl
  | cons r rest =>
    rw [runDrops, Nat.add_zero, Nat.sub_eq_zero_of_le hring, List.take_zero, List.any_nil, Bool.and_false]
    exact nofun

theorem any_or {α : Type} (l : List α) (f g : α → Bool) : (l.any fun x => f x || g x) = (l.any f || l.any g) := by
  induction l with
  | nil => rfl
  | cons a l ih => simp only [List.any_cons, ih, Bool.or_left_comm, Bool.or_assoc]

theorem any_congr {α : Type} {l : List α} {f g : α → Bool} (h : ∀ x, f x = g x) : l.any f = l.any g :=
  congrArg l.any (funext h)

theorem any_eq_filter {α : Type} (l : List α) (f : α → Bool) : l.any f = !(l.filter f).isEmpty := by
  induction l with
  | nil => rfl
  | cons a l ih => cases h : f a <;> simp [h, ih]

theorem any_take_succ {α : Type} (l : List α) (f : α → Bool) {j : Nat} (hj : j < l.length) :
    (l.take (j + 1)).any f = ((l.take j).any f || f l[j]) := by
  rw [List.take_succ_eq_append_getElem hj, List.any_append, List.any_cons, List.any_nil, Bool.or_false]

/-- Where the ring is not full, no row departs. -/
theorem rowDrops_of_room {ring : List RingRow} (hne : ring ≠ []) (hroom : ring.length < Config.ringRows) (n : Ssn)
    (e : SweepEntry) : rowDrops ring n e = false := by
  cases ring with
  | nil => exact absurd rfl hne
  | cons r rest => rw [rowDrops, decide_eq_false (Nat.not_le.2 hroom), Bool.false_and]

/-- A run within the ring's size drops nothing of a ring that holds a row. -/
theorem runDrops_of_room {ring : List RingRow} (hne : ring ≠ []) (start : Ssn) {rows : Nat}
    (hroom : ring.length + rows ≤ Config.ringRows) (e : SweepEntry) : runDrops ring start rows e = false := by
  cases ring with
  | nil => exact absurd rfl hne
  | cons r rest =>
    rw [runDrops, Nat.sub_eq_zero_of_le hroom, List.take_zero, List.any_nil, Bool.and_false]
    exact nofun

theorem runDrops_of_cons (r : RingRow) (rest : List RingRow) (start : Ssn) (rows : Nat) (e : SweepEntry) :
    runDrops (r :: rest) start rows e = (e.isDroppable &&
      ((r :: rest).take ((r :: rest).length + rows - Config.ringRows)).any fun row => ssnAtOrBefore e.t0 row.ssn) := rfl

/-- The ring behind several rows, where the next row displaces one of its old rows. -/
theorem newestRows_drop {ring : List RingRow} (start : Ssn) (words : List (List RingWord))
    (hfull : Config.ringRows ≤ ring.length + words.length) (hj : ring.length + words.length - Config.ringRows < ring.length) :
    newestRows (ring ++ numberRows start words) = ring[ring.length + words.length - Config.ringRows] ::
      (ring.drop (ring.length + words.length - Config.ringRows + 1) ++ numberRows start words) ∧
    (newestRows (ring ++ numberRows start words)).length = Config.ringRows := by
  have hlength : (ring ++ numberRows start words).length = ring.length + words.length := by
    rw [List.length_append, numberRows_length]
  refine ⟨?_, ?_⟩
  · rw [newestRows, hlength, List.drop_append_of_le_length hj.le, List.drop_eq_getElem_cons hj, List.cons_append]
  · rw [newestRows, List.length_drop, hlength]
    omega

/-- One row more: what the run drops, or what its last row drops of the entries that stay. -/
theorem runDrops_succ {ring : List RingRow} (hring : ring.length ≤ Config.ringRows) (start : Ssn)
    {words : List (List RingWord)} (hk : words.length < Config.ringRows) (clock : Nat) (e : SweepEntry) :
    runDrops ring start (words.length + 1) e = (runDrops ring start words.length e ||
      rowDrops (newestRows (ring ++ numberRows start words)) (start + BitVec.ofNat 32 words.length)
        (e.arrivedBy clock start words.length)) := by
  have hlength : (ring ++ numberRows start words).length = ring.length + words.length := by
    rw [List.length_append, numberRows_length]
  cases hr : ring with
  | nil =>
    cases words with
    | nil =>
      have hempty : newestRows ([] ++ numberRows start []) = [] := newestRows_of_le (Nat.zero_le _)
      rw [hempty, List.length_nil, SweepEntry.arrivedBy_zero, rowDrops, runDrops, runDrops,
        show start + BitVec.ofNat 32 0 = start from BitVec.add_zero _]
      simp
    | cons w words =>
      have hkept : newestRows ([] ++ numberRows start (w :: words)) = numberRows start (w :: words) :=
        newestRows_of_le (by rw [List.nil_append, numberRows_length]; exact hk.le)
      rw [hkept, rowDrops_of_room (by rw [numberRows]; nofun) (by rw [numberRows_length]; exact hk), Bool.or_false]
      simp [runDrops]
  | cons r rest =>
    rw [← hr]
    have hne : ring ≠ [] := by rw [hr]; nofun
    by_cases hfull : Config.ringRows ≤ ring.length + words.length
    · have hj : ring.length + words.length - Config.ringRows < ring.length := by omega
      obtain ⟨hnewest, hsize⟩ := newestRows_drop start words hfull hj
      have hrow : rowDrops (newestRows (ring ++ numberRows start words)) (start + BitVec.ofNat 32 words.length)
          (e.arrivedBy clock start words.length) =
            (e.isDroppable && ssnAtOrBefore e.t0 (ring[ring.length + words.length - Config.ringRows]).ssn) := by
        rw [hnewest] at hsize ⊢
        rw [rowDrops, decide_eq_true hsize.ge, Bool.true_and, SweepEntry.arrivedBy_isDroppable,
          SweepEntry.arrivedBy_t0]
      have hnext : ring.length + (words.length + 1) - Config.ringRows =
          ring.length + words.length - Config.ringRows + 1 := by omega
      rw [hrow]
      generalize hplace : ring.length + words.length - Config.ringRows = place at hj hnext
      subst hr
      rw [runDrops_of_cons, runDrops_of_cons, hnext, hplace, any_take_succ _ _ hj, Bool.and_or_distrib_left]
    · have hkept : newestRows (ring ++ numberRows start words) = ring ++ numberRows start words :=
        newestRows_of_le (by rw [hlength]; omega)
      rw [hkept, rowDrops_of_room (by simp [hne]) (by rw [hlength]; omega), runDrops_of_room hne start (by omega),
        runDrops_of_room hne start (by omega), Bool.or_false]

/-- Behind the first row, a run within the ring's size drops nothing more. -/
theorem runDrops_of_later {ring : List RingRow} {words : List (List RingWord)} (hlater : ¬ (ring = [] ∧ words = []))
    (start : Ssn) (hroom : ring.length + (words.length + 1) ≤ Config.ringRows) :
    runDrops ring start (words.length + 1) = runDrops ring start words.length := by
  funext e
  by_cases hring : ring = []
  · have hwords : words ≠ [] := fun h => hlater ⟨hring, h⟩
    have hpos : 1 ≤ words.length := List.length_pos_iff.2 hwords
    rw [hring, runDrops, runDrops, decide_eq_true hpos, decide_eq_true (by omega : 1 ≤ words.length + 1)]
  · rw [runDrops_of_room hring start hroom, runDrops_of_room hring start (by omega)]

/-! ### The table behind several rows -/

/-- What the rows of a run leave between two points of an event: the ring, E, the table, SWEEP_DROPPED, and, while no row
departs, the resolutions. -/
structure RowRun (a : Event) (start : Ssn) (words : List (List RingWord)) (b : Event) : Prop where
  ring : b.st.ring = newestRows (a.st.ring ++ numberRows start words)
  next : b.st.ingest.origin.map StreamOrigin.expected = some (start + BitVec.ofNat 32 words.length)
  clock : b.st.clock = a.st.clock
  sweeps : b.st.sweeps = (a.st.sweeps.filter fun e => !runDrops a.st.ring start words.length e).map
    (SweepEntry.arrivedBy a.st.clock start words.length)
  dropped : b.raised.getLsbD 1 = (a.raised.getLsbD 1 || a.st.sweeps.any (runDrops a.st.ring start words.length))
  work : a.st.ring.length + words.length ≤ Config.ringRows →
    Resolutions a b .droppedRestart (a.st.sweeps.filter (runDrops a.st.ring start words.length))

namespace RowRun

variable {a b c : Event} {start : Ssn} {words : List (List RingWord)}

/-- Counters and causes beside the run's own. -/
theorem aside (h : RowRun a start words b) (hring : c.st.ring = b.st.ring)
    (horigin : c.st.ingest.origin = b.st.ingest.origin) (hclock : c.st.clock = b.st.clock)
    (hsweeps : c.st.sweeps = b.st.sweeps) (hwork : b.st.SameWork c.st) (hresults : c.results = b.results)
    (hbits : ∀ i < 2, c.raised.getLsbD i = b.raised.getLsbD i) : RowRun a start words c :=
  ⟨hring.trans h.ring, by rw [horigin, h.next], hclock.trans h.clock, hsweeps.trans h.sweeps,
    (hbits 1 (by omega)).trans h.dropped, fun hroom => (h.work hroom).behind hwork hresults (hbits 0 (by omega))⟩

/-- Before the first row. -/
theorem ofOrigin (a : Event) (hring : a.st.ring.length ≤ Config.ringRows) {o : StreamOrigin}
    (horigin : a.st.ingest.origin = some o) : RowRun a o.expected [] a := by
  have hnone : runDrops a.st.ring o.expected 0 = fun _ => false := funext fun e => runDrops_zero hring _ e
  refine ⟨?_, ?_, rfl, ?_, ?_, fun _ => ?_⟩
  · rw [numberRows, List.append_nil]
    exact (newestRows_of_le hring).symm
  · rw [horigin, List.length_nil, show o.expected + BitVec.ofNat 32 0 = o.expected from BitVec.add_zero _]
    rfl
  · rw [List.length_nil, hnone, show SweepEntry.arrivedBy a.st.clock o.expected 0 = id from
      funext fun e => SweepEntry.arrivedBy_zero _ _ e]
    simp
  · rw [List.length_nil, hnone, any_false, Bool.or_false]
  · rw [List.length_nil, hnone, List.filter_false]
    exact .nothing (.refl _) rfl rfl _

theorem distinct (h : RowRun a start words b) (hd : DistinctNumbers a.st) : DistinctNumbers b.st := by
  unfold DistinctNumbers at *
  have hnumber : SweepEntry.number ∘ SweepEntry.arrivedBy a.st.clock start words.length = SweepEntry.number :=
    funext fun e => SweepEntry.arrivedBy_number _ _ _ e
  rw [h.sweeps, List.map_map, hnumber]
  exact hd.sublist (List.filter_sublist.map _)

theorem noneRejected (h : RowRun a start words b) (hsettled : NoneRejected a.st) : NoneRejected b.st := by
  intro x hx hwaiting
  rw [h.sweeps] at hx
  obtain ⟨e, he, rfl⟩ := List.mem_map.1 hx
  rw [SweepEntry.arrivedBy_isRejected]
  exact hsettled e (List.mem_filter.1 he).1 (SweepEntry.waiting_of_arrivedBy _ _ _ _ hwaiting)

theorem nextSsn (h : RowRun a start words b) : nextSsn b.st = start + BitVec.ofNat 32 words.length := by
  obtain ⟨o, ho, hexpected⟩ := Option.map_eq_some_iff.1 h.next
  rw [nextSsn_of_origin ho, hexpected]

/-- The row's own drops, in the table as it stands. -/
theorem filter_rowDrops (h : RowRun a start words b) (hring : a.st.ring.length ≤ Config.ringRows)
    (hk : words.length < Config.ringRows) :
    b.st.sweeps.filter (rowDrops b.st.ring (Machine.nextSsn b.st)) =
      ((a.st.sweeps.filter fun e => !runDrops a.st.ring start words.length e && runDrops a.st.ring start (words.length + 1) e)).map
        (SweepEntry.arrivedBy a.st.clock start words.length) := by
  rw [h.nextSsn, h.ring, h.sweeps, List.filter_map, List.filter_filter]
  refine congrArg (List.map _) (List.filter_congr fun e _ => ?_)
  rw [runDrops_succ hring start hk a.st.clock e, Function.comp]
  cases runDrops a.st.ring start words.length e <;> simp

theorem row (h : RowRun a start words b) (hd : DistinctNumbers a.st) (hsettled : NoneRejected a.st)
    (hring : a.st.ring.length ≤ Config.ringRows) (hk : words.length < Config.ringRows) (gap : Bool)
    (w : List RingWord) : RowRun a start (words ++ [w]) (appendRow gap b w) := by
  have hR : Config.ringRows = 65536 := rfl
  have hlength : (words ++ [w]).length = words.length + 1 := List.length_append
  have hnext := h.nextSsn
  obtain ⟨hringb, hingestb, -⟩ := appendRow_spec gap b w (by rw [h.ring]; exact newestRows_length_le _)
  obtain ⟨hres, hbit⟩ := appendRow_resolutions gap w (h.distinct hd) (h.noneRejected hsettled)
  have hfilter := h.filter_rowDrops hring hk
  have hsucc := runDrops_succ hring start hk a.st.clock
  refine ⟨?_, ?_, (RowFrame.appendRow gap b w).clock.trans h.clock, ?_, ?_, fun hroom => ?_⟩
  · rw [hringb, hnext, h.ring, newestRows_append, List.append_assoc, numberRows_append]
    rfl
  · obtain ⟨o, ho, -⟩ := Option.map_eq_some_iff.1 h.next
    rw [hingestb, ho, hnext, hlength, ofNat_succ, ← BitVec.add_assoc]
    rfl
  · have hkept : ∀ x ∈ (b.st.sweeps.filter fun e => !rowDrops b.st.ring (Machine.nextSsn b.st) e).map
        (SweepEntry.arrive b.st (Machine.nextSsn b.st)), (!rowRejects (Machine.nextSsn b.st) x) = true := by
      intro x hx
      obtain ⟨e, he, rfl⟩ := List.mem_map.1 hx
      rw [(h.noneRejected hsettled).rejects _ _ (List.mem_filter.1 he).1 b.st]
      rfl
    rw [appendRow_sweeps gap w (h.distinct hd), List.filter_eq_self.2 hkept, hnext, h.ring, h.sweeps, hlength,
      List.filter_map, List.filter_filter, List.map_map]
    refine congrArg₂ List.map (funext fun e => ?_) (List.filter_congr fun e _ => ?_)
    · rw [Function.comp, SweepEntry.arrive_clock h.clock]
      exact SweepEntry.arrive_arrivedBy a.st start (by omega) e
    · rw [hsucc, Function.comp]
      cases runDrops a.st.ring start words.length e <;> simp
  · have hany : b.st.sweeps.any (rowDrops b.st.ring (Machine.nextSsn b.st)) = a.st.sweeps.any fun e =>
        !runDrops a.st.ring start words.length e && runDrops a.st.ring start (words.length + 1) e := by
      rw [any_eq_filter, hfilter, List.isEmpty_map, ← any_eq_filter]
    rw [hbit, h.dropped, hlength, Bool.or_assoc, hany, ← any_or]
    refine congrArg (_ || ·) (any_congr fun e => ?_)
    rw [hsucc]
    cases runDrops a.st.ring start words.length e <;> simp
  · rw [hlength] at hroom ⊢
    have hbefore := h.work (by omega)
    by_cases hfirst : a.st.ring = [] ∧ words = []
    · obtain ⟨hempty, rfl⟩ := hfirst
      have hnone : runDrops a.st.ring start 0 = fun _ => false := funext fun e => runDrops_zero hring start e
      have harrived : SweepEntry.arrivedBy a.st.clock start 0 = id := funext fun e => SweepEntry.arrivedBy_zero _ _ e
      have hringempty : b.st.ring = [] := by
        rw [h.ring, hempty]
        exact newestRows_of_le (Nat.zero_le _)
      rw [List.length_nil, hnone, List.filter_false] at hbefore
      obtain ⟨hwork, hresults, hsealed⟩ := hbefore.of_nil
      rw [hfilter, List.length_nil, hnone, harrived, List.map_id, hringempty, rowOutcome, if_pos rfl] at hres
      exact hres.before hwork hresults hsealed
    · have hsame : runDrops a.st.ring start (words.length + 1) = runDrops a.st.ring start words.length :=
        runDrops_of_later hfirst start hroom
      rw [hfilter, hsame, List.filter_eq_nil_iff.2 (by simp), List.map_nil] at hres
      obtain ⟨hwork, hresults, hsealed⟩ := hres.of_nil
      rw [hsame]
      exact hbefore.behind hwork hresults hsealed

/-- Many rows. -/
theorem rows (h : RowRun a start words b) (hd : DistinctNumbers a.st) (hsettled : NoneRejected a.st)
    (hring : a.st.ring.length ≤ Config.ringRows) (gap : Bool) (more : List (List RingWord))
    (hk : words.length + more.length ≤ Config.ringRows) : RowRun a start (words ++ more) (more.foldl (appendRow gap) b) := by
  induction more generalizing words b with
  | nil => rwa [List.append_nil]
  | cons w more ih =>
    rw [List.length_cons] at hk
    have hlength : (words ++ [w]).length = words.length + 1 := List.length_append
    have hnext := ih (h.row hd hsettled hring (by omega) gap w) (by omega)
    rwa [List.append_assoc, List.singleton_append] at hnext

end RowRun

end Sys2Proof.Machine

/-! PROOFS. What departures, first arrivals and restarts do to the sweeps of a block (R13 to R15, R37, R73, R80 to R82). -/

namespace Sys2Proof.Machine

/-! ### Runs of the rows of a block -/

namespace RowRun

variable {a b c : Event} {start : Ssn} {words : List (List RingWord)}

/-- A run seen from a point before it that differs in the ingest unit alone. -/
theorem before (h : RowRun b start words c) (hring : b.st.ring = a.st.ring) (hclock : b.st.clock = a.st.clock)
    (hsweeps : b.st.sweeps = a.st.sweeps) (hwork : a.st.SameWork b.st) (hresults : b.results = a.results)
    (hbits : ∀ i < 2, b.raised.getLsbD i = a.raised.getLsbD i) : RowRun a start words c := by
  obtain ⟨hringc, hnext, hclockc, hsweepsc, hdropped, hworkc⟩ := h
  rw [hring] at hringc hsweepsc hdropped hworkc
  rw [hsweeps] at hsweepsc hdropped hworkc
  rw [hclock] at hsweepsc hclockc
  rw [hbits 1 (by omega)] at hdropped
  exact ⟨hringc, hnext, hclockc, hsweepsc, hdropped, fun hroom =>
    (hworkc hroom).before hwork hresults (hbits 0 (by omega))⟩

theorem block (h : RowRun a start words b) (hd : DistinctNumbers a.st) (hsettled : NoneRejected a.st)
    (hring : a.st.ring.length ≤ Config.ringRows) (rows : List (List SampleWord))
    (hk : words.length + rows.length ≤ Config.ringRows) :
    RowRun a start (words ++ rows.map fun r => r.map normalise) (appendBlock rows b) := by
  have hcounted : RowRun a start words (b.change fun s =>
      { s with ingest := { s.ingest with dropouts := satAdd32 s.ingest.dropouts (invalidWords rows) } }) :=
    h.aside rfl rfl rfl rfl ⟨rfl, rfl, rfl, rfl, rfl⟩ rfl fun _ _ => rfl
  exact hcounted.rows hd hsettled hring false _ (by rwa [List.length_map])

end RowRun

theorem streamFault_low_bits (ev : Event) {i : Nat} (hi : i < 2) :
    (ev.addCause .streamFault).raised.getLsbD i = ev.raised.getLsbD i := by
  rw [addCause_raised_bit]
  simp [Cause.bit, show i ≠ 3 by omega]

section Runs

variable {ev : Event} {o : StreamOrigin} (horigin : ev.st.ingest.origin = some o) (hd : DistinctNumbers ev.st)
  (hsettled : NoneRejected ev.st) (hring : ev.st.ring.length ≤ Config.ringRows)
include horigin hd hsettled hring

theorem fillGap_run {d : Nat} (hk : d ≤ Config.ringRows) :
    RowRun ev o.expected (gapRun ev.st.ingest.channels d) (fillGap d ev) := by
  have hcounted : RowRun ev o.expected [] ((ev.change fun s =>
      { s with ingest := { s.ingest with gapRows := satAdd32 s.ingest.gapRows d } }).addCause .streamFault) :=
    (RowRun.ofOrigin ev hring horigin).aside rfl rfl rfl rfl ⟨rfl, rfl, rfl, rfl, rfl⟩ rfl fun i hi =>
      streamFault_low_bits _ hi
  exact hcounted.rows hd hsettled hring true _ (by
    rw [List.length_nil, Nat.zero_add, List.length_replicate]; exact hk)

theorem extendBlock_run (d : Nat) (rows : List (List SampleWord)) (hk : d + rows.length ≤ Config.ringRows) :
    RowRun ev o.expected (gapRun ev.st.ingest.channels d ++ rows.map fun r => r.map normalise) (extendBlock d rows ev) := by
  have hgap : RowRun ev o.expected (gapRun ev.st.ingest.channels d) (if d = 0 then ev else fillGap d ev) := by
    split
    next hzero =>
      subst hzero
      exact .ofOrigin ev hring horigin
    · exact fillGap_run horigin hd hsettled hring (by omega)
  exact hgap.block hd hsettled hring rows (by rwa [gapRun_length])

theorem stale_run (k : Nat) (rows : List (List SampleWord)) (hk : rows.length ≤ Config.ringRows) :
    RowRun ev o.expected (rows.map fun r => r.map normalise) (appendBlock rows (countStale k ev)) := by
  have hcounted : RowRun ev o.expected [] (countStale k ev) :=
    (RowRun.ofOrigin ev hring horigin).aside rfl rfl rfl rfl ⟨rfl, rfl, rfl, rfl, rfl⟩ rfl fun i hi =>
      streamFault_low_bits _ hi
  exact hcounted.block hd hsettled hring rows (by rwa [List.length_nil, Nat.zero_add])

end Runs

/-- A block in origin state NONE sets the origin and is appended. -/
theorem firstBlock_run {ev : Event} (hd : DistinctNumbers ev.st) (hsettled : NoneRejected ev.st)
    (hring : ev.st.ring.length ≤ Config.ringRows) (first : Ssn) (rows : List (List SampleWord))
    (hk : rows.length ≤ Config.ringRows) :
    RowRun ev first (rows.map fun r => r.map normalise) (appendBlock rows (ev.change fun s =>
      { s with ingest := { s.ingest with origin := some { origin := first, expected := first } } })) := by
  have hstart := RowRun.ofOrigin (o := { origin := first, expected := first }) (ev.change fun s =>
    { s with ingest := { s.ingest with origin := some { origin := first, expected := first } } }) hring rfl
  exact (hstart.block hd hsettled hring rows (by rwa [List.length_nil, Nat.zero_add])).before rfl rfl rfl
    ⟨rfl, rfl, rfl, rfl, rfl⟩ rfl fun _ _ => rfl

theorem GoodBlock.rows_le {s : State} {p : List Byte} {first : Ssn} {n : Nat} (h : GoodBlock s p first n) :
    1 ≤ n ∧ n ≤ 16 := by
  obtain ⟨hgood, -, -, hn⟩ := h
  unfold blockMalformed at hgood
  rw [decide_eq_false_iff_not] at hgood
  omega

/-- A good block up to 4,096 rows ahead of E, or before it, is a run of rows. -/
theorem goodBlock_run {s : State} {p : List Byte} {rest : List Frame} {first start : Ssn} {n rows : Nat}
    (hgood : GoodBlock s p first n) (happended : RowsAppended s first n start rows)
    (hring : s.ring.length ≤ Config.ringRows) (hd : DistinctNumbers s) (hsettled : NoneRejected s) :
    let b := handleRowBlock p (Event.start (s.takeBlock rest))
    ∃ words, words.length = rows ∧ RowRun (Event.start (s.takeBlock rest)) start words b ∧
      RowFrame (Event.start (s.takeBlock rest)) b ∧ b.st.fleets = s.fleets := by
  intro b
  have hR : Config.ringRows = 65536 := rfl
  obtain ⟨-, hn⟩ := hgood.rows_le
  have hlength := readRows_length n s.ingest.channels p
  have hb : b = _ := handleRowBlock_of_good hgood (ev := Event.start (s.takeBlock rest)) rfl
  rcases happended with ⟨hnone, rfl, rfl⟩ | ⟨o, ho, rfl, ⟨hahead, rfl⟩ | ⟨hlo, hhi, rfl⟩⟩
  · rw [hb, hnone, Option.elim_none]
    refine ⟨_, ?_, firstBlock_run (ev := Event.start (s.takeBlock rest)) hd hsettled hring _ _ (by omega), ?_, ?_⟩
    · rw [List.length_map, hlength]
    · exact (RowFrame.ingest (Event.start (s.takeBlock rest))
        { s.ingest with origin := some { origin := start, expected := start } } rfl rfl).trans
          (appendBlock_appended _ rfl hring).frame
    · exact (appendBlock_appended _ rfl hring).fleets
  · rw [hb, ho, Option.elim_some, placeBlock_of_ahead rfl hahead]
    have h := extendBlock_appended (first - o.expected).toNat (readRows n s.ingest.channels p)
      (ev := Event.start (s.takeBlock rest)) ho hring
    refine ⟨_, ?_, extendBlock_run (ev := Event.start (s.takeBlock rest)) ho hd hsettled hring _ _ (by omega), h.frame,
      h.fleets⟩
    rw [List.length_append, gapRun_length, List.length_map, hlength]
  · rw [hb, ho, Option.elim_some, placeBlock_of_behind rfl hlo hhi]
    obtain ⟨h, hstale⟩ := appendStale_appended (min (o.expected - first).toNat (readRows n s.ingest.channels p).length)
      ((readRows n s.ingest.channels p).drop (o.expected - first).toNat) (ev := Event.start (s.takeBlock rest)) ho hring
    refine ⟨_, ?_, stale_run (ev := Event.start (s.takeBlock rest)) ho hd hsettled hring _ _
      (by rw [List.length_drop]; omega), hstale.trans h.frame, h.fleets⟩
    rw [List.length_map, List.length_drop, hlength]

/-! ### Drops and arrivals by their conditions -/

theorem SweepEntry.proceeds_iff (e : SweepEntry) : e.proceeds = true ↔
    e.qc = .pass ∨ (e.qc = .fail ∧ e.copy.policy = .keep) ∨
      (e.qc = .noReport ∧ (e.copy.noReport = .pass ∨ e.copy.policy = .keep)) := by
  unfold SweepEntry.proceeds
  cases e.qc <;> cases e.copy.policy <;> cases e.copy.noReport <;> simp [qcProceeds]

/-- The stage behind an arrival. -/
theorem SweepEntry.arrived_stage (e : SweepEntry) :
    (if e.proceeds && decide (e.stage = .waiting) then Stage.ready else e.stage) =
      if e.stage = .waiting ∧ (e.qc = .pass ∨ (e.qc = .fail ∧ e.copy.policy = .keep) ∨
        (e.qc = .noReport ∧ (e.copy.noReport = .pass ∨ e.copy.policy = .keep))) then .ready else e.stage := by
  refine if_congr ?_ rfl rfl
  rw [Bool.and_eq_true, decide_eq_true_eq, e.proceeds_iff, and_comm]

end Sys2Proof.Machine

/-! PROOFS. Overrun and first arrival drop sweeps (R72, R73, R80, R81, R92). -/

namespace Sys2Proof.Machine

/-! ### A block of one row -/

theorem SweepEntry.arrivedBy_one (clock : Nat) (start : Ssn) (e : SweepEntry) :
    e.arrivedBy clock start 1 = if e.dataRow = start ∧ e.dataComplete = false then
      { e with
        dataComplete := true
        timer := if e.qc = .pending then
          some { length := e.copy.reportTimeout, deadline := clock + e.copy.reportTimeout } else e.timer
        stage := if e.stage = .waiting ∧ (e.qc = .pass ∨ (e.qc = .fail ∧ e.copy.policy = .keep) ∨
          (e.qc = .noReport ∧ (e.copy.noReport = .pass ∨ e.copy.policy = .keep))) then .ready else e.stage }
      else e := by
  have hrow : (e.dataRow - start).toNat < 1 ↔ e.dataRow = start := by
    rw [Nat.lt_one_iff, sub_toNat_eq_iff (by omega), show start + BitVec.ofNat 32 0 = start from BitVec.add_zero _]
  rw [arrivedBy, arrived_stage]
  exact if_congr (and_congr_left fun _ => hrow) rfl rfl

/-- One row drops what its departure or its first arrival drops. -/
theorem runDrops_one {ring : List RingRow} (hring : ring.length ≤ Config.ringRows) (start : Ssn) (e : SweepEntry) :
    runDrops ring start 1 e = rowDrops ring start e := by
  have hR : Config.ringRows = 65536 := rfl
  cases ring with
  | nil => rw [runDrops, rowDrops, decide_eq_true (Nat.le_refl 1), Bool.true_and]
  | cons r rest =>
    rw [runDrops_of_cons, rowDrops]
    by_cases hfull : Config.ringRows ≤ (r :: rest).length
    · rw [decide_eq_true hfull, Nat.le_antisymm hring hfull, Nat.add_sub_cancel_left, List.take_succ_cons,
        List.take_zero, List.any_cons, List.any_nil, Bool.or_false, Bool.true_and]
    · rw [decide_eq_false hfull, Nat.sub_eq_zero_of_le (by omega), List.take_zero, List.any_nil, Bool.false_and,
        Bool.and_false]

/-- A ring that one more row joins. -/
theorem newestRows_numberRows_one {ring : List RingRow} (hring : ring.length ≤ Config.ringRows) (first : Ssn)
    {rows : List (List RingWord)} (hone : rows.length = 1) :
    newestRows (ring ++ numberRows first rows) =
      (if ring.length = Config.ringRows then ring.tail else ring) ++ numberRows first rows := by
  obtain ⟨r, hr⟩ := List.length_eq_one_iff.1 ((numberRows_length first rows).trans hone)
  rw [hr]
  cases ring with
  | nil => exact newestRows_of_le (Nat.succ_le_of_lt (by decide))
  | cons x rest =>
    rcases newestRows_snoc (r := x) (x := r) hring with ⟨hroom, h⟩ | ⟨hfull, h⟩
    · rw [h, List.length_cons, if_neg (Nat.ne_of_lt hroom), List.cons_append]
    · rw [h, List.length_cons, if_pos hfull, List.tail_cons]

/-- What the one row of a block resolves. -/
theorem appendBlock_one_resolutions {rows : List (List SampleWord)} (hone : rows.length = 1) {ev : Event} {first : Ssn}
    (hnext : nextSsn ev.st = first) (hd : DistinctNumbers ev.st) (hsettled : NoneRejected ev.st) :
    Resolutions ev (appendBlock rows ev) (rowOutcome ev.st.ring) (ev.st.sweeps.filter (rowDrops ev.st.ring first)) := by
  subst hnext
  obtain ⟨row, rfl⟩ := List.length_eq_one_iff.1 hone
  have h := (appendRow_resolutions false (row.map normalise) (ev := ev.change fun s =>
    { s with ingest := { s.ingest with dropouts := satAdd32 s.ingest.dropouts (invalidWords [row]) } }) hd hsettled).1
  exact h.before ⟨rfl, rfl, rfl, rfl, rfl⟩ rfl rfl

/-- A block of one row at E, or in origin state NONE, appends its row with the block's first SSN. -/
theorem handleRowBlock_of_one {s : State} {p : List Byte} {first : Ssn} (hgood : GoodBlock s p first 1)
    (hat : s.ingest.origin = none ∨ ∃ o, s.ingest.origin = some o ∧ o.expected = first) (rest : List Frame) :
    ∃ (i : Ingest) (o : StreamOrigin), i.origin = some o ∧ o.expected = first ∧ i.channels = s.ingest.channels ∧
      handleRowBlock p (Event.start (s.takeBlock rest)) = appendBlock (readRows 1 s.ingest.channels p)
        ((Event.start (s.takeBlock rest)).change fun s => { s with ingest := i }) := by
  rw [handleRowBlock_of_good hgood (ev := Event.start (s.takeBlock rest)) rfl]
  rcases hat with hnone | ⟨o, ho, rfl⟩
  · rw [hnone]
    exact ⟨{ s.ingest with origin := some { origin := first, expected := first } }, _, rfl, rfl, rfl, rfl⟩
  · have hzero : (o.expected - o.expected).toNat = 0 := by rw [BitVec.sub_self]; rfl
    rw [ho, Option.elim_some, placeBlock_of_ahead hzero (by omega)]
    exact ⟨s.ingest, o, ho, rfl, rfl, rfl⟩

/-- The ring and the resolutions behind a block of one row at E, or in origin state NONE. -/
theorem oneRow_resolutions {s : State} {p : List Byte} {first : Ssn} (hgood : GoodBlock s p first 1)
    (hat : s.ingest.origin = none ∨ ∃ o, s.ingest.origin = some o ∧ o.expected = first)
    (hring : s.ring.length ≤ Config.ringRows) (hd : DistinctNumbers s) (hsettled : NoneRejected s) (rest : List Frame) :
    let b := handleRowBlock p (Event.start (s.takeBlock rest))
    b.st.ring = newestRows (s.ring ++ numberRows first (blockRows p)) ∧
      Resolutions (Event.start (s.takeBlock rest)) b (rowOutcome s.ring) (s.sweeps.filter (rowDrops s.ring first)) := by
  obtain ⟨i, o, horigin, rfl, hchannels, hblock⟩ := handleRowBlock_of_one hgood hat rest
  have hres := appendBlock_one_resolutions (readRows_length 1 s.ingest.channels p)
    (ev := (Event.start (s.takeBlock rest)).change fun s => { s with ingest := i }) (nextSsn_of_origin horigin) hd hsettled
  have happended := appendBlock_appended (readRows 1 s.ingest.channels p) (o := o)
    (ev := (Event.start (s.takeBlock rest)).change fun s => { s with ingest := i }) horigin hring
  rw [hblock]
  refine ⟨?_, hres.before ⟨rfl, rfl, rfl, rfl, rfl⟩ rfl rfl⟩
  rw [happended.ring, hgood.rows, gapRun, List.replicate_zero, List.nil_append]
  rfl

/-- The lanes behind the resolutions of the entries that satisfy a condition. -/
theorem State.resolvedAllAs_filter_lane (s : State) (out : SweepOutcome) (p : SweepEntry → Bool) (i : Fin Config.lanes) :
    ((∃ e ∈ s.sweeps, p e = true ∧ e.stage = .correlating i) →
        (s.resolvedAllAs out (s.sweeps.filter p)).lanes[i] = .idle) ∧
      ((∀ e ∈ s.sweeps, p e = true → e.stage ≠ .correlating i) →
        (s.resolvedAllAs out (s.sweeps.filter p)).lanes[i] = s.lanes[i]) := by
  obtain ⟨hdropped, hkept⟩ := s.resolvedAllAs_lane out (s.sweeps.filter p) i
  refine ⟨fun ⟨e, he, hp, hstage⟩ => hdropped ⟨e, List.mem_filter.2 ⟨he, hp⟩, hstage⟩, fun h => hkept fun e he => ?_⟩
  obtain ⟨he, hp⟩ := List.mem_filter.1 he
  exact h e he hp

theorem noneRejected_of_all {s : State} (h : ∀ e ∈ s.sweeps, e.isRejected = false) : NoneRejected s :=
  fun e he _ => h e he

/-- Settles O38: row by row along a block, and for a block of one row with all its resolutions. -/
theorem overrunDropsSweeps : Obligations.OverrunDropsSweeps := by
  refine ⟨?_, ?_⟩
  · intro s tag p rest first hframe hgood hat hring hd hnot drops outcome arrived
    have hsettled := noneRejected_of_all hnot
    have hrows : RowsAppended s first 1 first 1 := by
      rcases hat with hnone | ⟨o, ho, rfl⟩
      · exact .inl ⟨hnone, rfl, rfl⟩
      · refine .inr ⟨o, ho, rfl, .inl ⟨?_, ?_⟩⟩ <;> rw [BitVec.sub_self] <;> decide
    obtain ⟨hafter, hres⟩ := oneRow_resolutions hgood hat hring hd hsettled rest
    obtain ⟨words, hlength, hrun, hframed, hfleets⟩ := goodBlock_run (rest := rest) hgood hrows hring hd hsettled
    have hdrops : drops = rowDrops s.ring first := by
      funext e
      dsimp only [drops]
      clear drops arrived hrun
      revert hring
      generalize s.ring = ring
      intro hring
      cases ring with
      | nil => rfl
      | cons r l =>
        rw [rowDrops, ← Bool.and_assoc]
        exact congrArg (· && e.isDroppable && _) (decide_eq_decide.2 ⟨Nat.le_of_eq ∘ Eq.symm, Nat.le_antisymm hring⟩)
    have harrived : arrived = SweepEntry.arrivedBy s.clock first 1 :=
      funext fun e => (SweepEntry.arrivedBy_one s.clock first e).symm
    have hone : runDrops s.ring first 1 = rowDrops s.ring first := funext (runDrops_one hring _)
    have hlanes := (hres.before (a := Event.start s) ⟨rfl, rfl, rfl, rfl, rfl⟩ rfl rfl).work.lanes
    rw [hdrops, harrived]
    refine ⟨_, exec_rowBlock hframe, ?_, ?_, ?_, ?_, ?_, hframed.sameButForRows, ?_⟩
    · rw [Event.finish_ring, hafter]
      exact newestRows_numberRows_one hring first (by rw [hgood.rows, List.length_map, readRows_length])
    · rw [Event.finish_sweeps, hrun.sweeps, hlength, Event.start_st, ← hone]
      rfl
    · exact hres.finish hframed
    · intro l
      rw [Event.finish_lanes, hlanes]
      exact State.resolvedAllAs_filter_lane s _ _ l
    · rw [Event.finish_pending_bit hframed, hrun.dropped, hlength, start_raised_bit, Bool.false_or, ← hone]
      rfl
    · rw [Event.finish_fleets, hfleets]
  · intro s tag p rest first start n rows hframe hgood hrows hring hd hnot drops arrived
    obtain ⟨words, hlength, hrun, hframed, hfleets⟩ := goodBlock_run (rest := rest) hgood hrows hring hd
      (noneRejected_of_all hnot)
    have hdrops : drops = runDrops s.ring start rows := rfl
    have harrived : arrived = SweepEntry.arrivedBy s.clock start rows := by
      funext e
      rw [SweepEntry.arrivedBy, SweepEntry.arrived_stage]
    rw [hdrops, harrived]
    subst hlength
    refine ⟨_, exec_rowBlock hframe, ?_, fun hroom => (hrun.work hroom).finish hframed, ?_, hframed.sameButForRows, ?_⟩
    · rw [Event.finish_sweeps, hrun.sweeps]
      rfl
    · rw [Event.finish_pending_bit hframed, hrun.dropped, start_raised_bit, Bool.false_or]
      rfl
    · rw [Event.finish_fleets, hfleets]

end Sys2Proof.Machine

/-! PROOFS. A stream restart drops the sweeps outside MERGING (R13 to R15, R37, R82). -/

namespace Sys2Proof.Machine

/-- What a stream restart with origin O leaves between two points of an event, STREAM_FAULT before it or not (R14, R15). -/
structure RestartedStream (o : Ssn) (fault : Bool) (a b : Event) : Prop where
  ring : b.st.ring = []
  ingest : b.st.ingest = { a.st.ingest with origin := some { origin := o, expected := o } }
  monitor : b.st.monitor = a.st.monitor.restart (some o)
  sweeps : b.st.sweeps = a.st.sweeps.filter fun e => !e.isDroppable
  fleets : ∀ fl : Fin Config.fleets, b.st.fleets[fl] = { a.st.fleets[fl] with lastT0 := none }
  work : Resolutions a b .droppedRestart (a.st.sweeps.filter SweepEntry.isDroppable)
  dropped : b.raised.getLsbD 1 = (a.raised.getLsbD 1 || decide (a.st.sweeps.filter SweepEntry.isDroppable ≠ []))
  fault : b.raised.getLsbD 3 = (a.raised.getLsbD 3 || fault)
  frame : RowFrame a b

theorem any_eq_decide {α : Type} (l : List α) (f : α → Bool) : l.any f = decide (l.filter f ≠ []) := by
  rw [any_eq_filter]
  cases l.filter f <;> simp

theorem restartStream_restarted (o : Ssn) {ev : Event} (hd : DistinctNumbers ev.st) :
    RestartedStream o false ev (restartStream o ev) := by
  have hframe := RowFrame.dropAll SweepEntry.isDroppable .droppedRestart (ev.change fun s =>
    { s with ring := [], ingest := { s.ingest with origin := some { origin := o, expected := o } } })
  have hres := Resolutions.dropAll (ev := ev.change fun s =>
    { s with ring := [], ingest := { s.ingest with origin := some { origin := o, expected := o } } }) hd
    SweepEntry.isDroppable (out := .droppedRestart) (by decide)
  obtain ⟨haside, -, hsweeps, -⟩ := dropAll_spec SweepEntry.isDroppable .droppedRestart (ev.change fun s =>
    { s with ring := [], ingest := { s.ingest with origin := some { origin := o, expected := o } } })
  refine ⟨haside.ring, haside.ingest, ?_, hsweeps hd, fun fl => ?_, ?_, ?_, ?_, ?_⟩
  · exact congrArg (Monitor.restart · (some o)) haside.monitor
  · have hfleets : (restartStream o ev).st.fleets = mapVec (fun f => { f with lastT0 := none }) ev.st.fleets :=
      congrArg (mapVec _) haside.fleets
    rw [hfleets]
    exact mapVec_getElem _ _ _ _
  · exact (hres.before (a := ev) ⟨rfl, rfl, rfl, rfl, rfl⟩ rfl rfl).behind ⟨rfl, rfl, rfl, rfl, rfl⟩ rfl rfl
  · exact (dropAll_dropped _ _ _).trans (congrArg (_ || ·) (any_eq_decide _ _))
  · refine (dropAll_raised_bit _ _ _ (by omega)).trans ?_
    rw [decide_eq_false (by omega), Bool.false_and]
    rfl
  · exact ⟨hframe.channels, hframe.interval, hframe.sweepCounter, hframe.ports, hframe.stackSerials, hframe.reading,
      hframe.alerts, hframe.spread, hframe.source, hframe.record, hframe.clock, hframe.freeCount, hframe.pending,
      fun hempty => by
        obtain ⟨hsweeps, hwork, hresults⟩ := hframe.quiet hempty
        obtain ⟨hpilots, hlanes, hslots, hqueue, horders⟩ := hwork
        exact ⟨hsweeps, ⟨hpilots, hlanes, hslots, hqueue, horders⟩, hresults⟩⟩

namespace RestartedStream

variable {o : Ssn} {fault : Bool} {a b : Event}

/-- The entries of the monitor's table behind a restart (R37). -/
theorem table (h : RestartedStream o fault a b) (i : Fin Config.channels) : b.st.monitor.table[i] =
    { a.st.monitor.table[i] with intervalSum := 0, partialMark := false, lowRun := 0, monitor := .normal } := by
  rw [h.monitor]
  exact mapVec_getElem resetChannel _ _ _

/-- Only MERGING entries stay. -/
theorem not_waiting (h : RestartedStream o fault a b) {e : SweepEntry} (he : e ∈ b.st.sweeps) : e.stage ≠ .waiting := by
  rw [h.sweeps] at he
  obtain ⟨-, hkept⟩ := List.mem_filter.1 he
  intro hwaiting
  rw [SweepEntry.isDroppable, hwaiting] at hkept
  exact absurd hkept (by decide)

theorem noneRejected (h : RestartedStream o fault a b) : NoneRejected b.st :=
  fun _ he hwaiting => absurd hwaiting (h.not_waiting he)

theorem distinct (h : RestartedStream o fault a b) (hd : DistinctNumbers a.st) : DistinctNumbers b.st := hd.of_filter h.sweeps

/-- A restart behind STREAM_FAULT. -/
theorem addCause (h : RestartedStream o false (a.addCause .streamFault) b) : RestartedStream o true a b := by
  obtain ⟨hring, hingest, hmonitor, hsweeps, hfleets, hwork, hdropped, hfault, hframe⟩ := h
  refine ⟨hring, hingest, hmonitor, hsweeps, hfleets,
    hwork.before (.refl _) rfl (streamFault_low_bits a (by omega)), ?_, ?_, (RowFrame.addCause a _).trans hframe⟩
  · exact hdropped.trans (congrArg (· || _) (streamFault_low_bits a (by omega)))
  · rw [hfault, Bool.or_false]
    exact addCause_raised_bit a .streamFault 3

theorem addCauseIf {ev : Event} (o : Ssn) (hd : DistinctNumbers ev.st) (fault : Bool) :
    RestartedStream o fault ev (restartStream o (ev.addCauseIf fault .streamFault)) := by
  cases fault with
  | false => exact restartStream_restarted o hd
  | true => exact (restartStream_restarted o (ev := ev.addCause .streamFault) hd).addCause

end RestartedStream

theorem wordAt_encWord (w : Word32) : wordAt (encWord w) 0 = w := wordAt_of rfl rfl rfl rfl

/-- The lanes behind a restart: those of CORRELATING entries are IDLE. -/
theorem State.resolvedDroppable_lane (s : State) (out : SweepOutcome) (l : Fin Config.lanes) :
    ((∃ e ∈ s.sweeps, e.stage = .correlating l) →
        (s.resolvedAllAs out (s.sweeps.filter SweepEntry.isDroppable)).lanes[l] = .idle) ∧
      ((∀ e ∈ s.sweeps, e.stage ≠ .correlating l) →
        (s.resolvedAllAs out (s.sweeps.filter SweepEntry.isDroppable)).lanes[l] = s.lanes[l]) := by
  obtain ⟨hdropped, hkept⟩ := s.resolvedAllAs_filter_lane out SweepEntry.isDroppable l
  refine ⟨fun ⟨e, he, hstage⟩ => hdropped ⟨e, he, ?_, hstage⟩, fun h => hkept fun e he _ => h e he⟩
  rw [SweepEntry.isDroppable, hstage]
  rfl

/-! ### Blocks far from E -/

/-- Where no entry is WAITING, rows that arrive start the report timers of what they complete, and no more. -/
theorem SweepEntry.arrivedBy_of_not_waiting {e : SweepEntry} (h : e.stage ≠ .waiting) (clock : Nat) (start : Ssn)
    (rows : Nat) :
    e.arrivedBy clock start rows = if e.dataComplete = false ∧ (e.dataRow - start).toNat < rows then
      { e with
        dataComplete := true
        timer := if e.qc = .pending then
          some { length := e.copy.reportTimeout, deadline := clock + e.copy.reportTimeout } else e.timer }
      else e := by
  have hstage : (if e.proceeds && decide (e.stage = .waiting) then Stage.ready else e.stage) = e.stage := by
    rw [decide_eq_false h, Bool.and_false]
    rfl
  rw [arrivedBy, hstage]
  exact if_congr and_comm rfl rfl

/-- What a block whose first SSN restarts the stream leaves between two points of an event. -/
structure RestartedBlock (first : Ssn) (rows : List (List SampleWord)) (a b c : Event) : Prop where
  appended : AppendedBlock 0 rows { origin := first, expected := first } b c
  sweeps : c.st.sweeps = (a.st.sweeps.filter fun e => !e.isDroppable).map fun e =>
    if e.dataComplete = false ∧ (e.dataRow - first).toNat < rows.length then
      { e with
        dataComplete := true
        timer := if e.qc = .pending then
          some { length := e.copy.reportTimeout, deadline := a.st.clock + e.copy.reportTimeout } else e.timer }
    else e
  work : Resolutions a c .droppedRestart (a.st.sweeps.filter SweepEntry.isDroppable)
  dropped : c.raised.getLsbD 1 = (a.raised.getLsbD 1 || decide (a.st.sweeps.filter SweepEntry.isDroppable ≠ []))

/-- The rows behind a restart start the ring, and drop no entry. -/
theorem RestartedStream.block {first : Ssn} {fault : Bool} {a b : Event} (h : RestartedStream first fault a b)
    (hd : DistinctNumbers a.st) (rows : List (List SampleWord)) (hrows : rows.length ≤ Config.ringRows) :
    RestartedBlock first rows a b (appendBlock rows b) := by
  have horigin : b.st.ingest.origin = some { origin := first, expected := first } := by rw [h.ingest]
  have hring : b.st.ring.length ≤ Config.ringRows := by rw [h.ring]; exact Nat.zero_le _
  have hrun := (RowRun.ofOrigin b hring horigin).block (h.distinct hd) h.noneRejected hring rows
    (by rwa [List.length_nil, Nat.zero_add])
  have hnone : ∀ e ∈ b.st.sweeps, runDrops b.st.ring first rows.length e = false := by
    intro e he
    rw [h.ring, runDrops, decide_eq_false (h.not_waiting he), Bool.and_false, Bool.false_and]
  have hfilter : b.st.sweeps.filter (runDrops b.st.ring first rows.length) = [] :=
    List.filter_eq_nil_iff.2 fun e he => by rw [hnone e he]; decide
  have hsweeps := hrun.sweeps
  have hdropped := hrun.dropped
  have hwork := hrun.work
  rw [List.nil_append, List.length_map] at hsweeps hdropped hwork
  rw [hfilter] at hwork
  obtain ⟨hsame, hresults, hsealed⟩ := (hwork (by rwa [h.ring, List.length_nil, Nat.zero_add])).of_nil
  refine ⟨appendBlock_appended rows horigin hring, ?_, h.work.behind hsame hresults hsealed, ?_⟩
  · rw [hsweeps, List.filter_eq_self.2 fun e he => by rw [hnone e he]; rfl, h.frame.clock, ← h.sweeps]
    exact List.map_congr_left fun e he => SweepEntry.arrivedBy_of_not_waiting (h.not_waiting he) _ _ _
  · rw [hdropped, h.dropped, any_eq_decide, hfilter]
    exact Bool.or_false _

/-- Settles O37: the restart by itself, and before the rows of a block. -/
theorem restartsDropSweeps : Obligations.RestartsDropSweeps := by
  refine ⟨?_, ?_⟩
  · intro s tag origin rest hframe hd dropped
    have h := RestartedStream.addCauseIf (ev := Event.start (s.takeBlock rest)) origin hd (!s.ring.isEmpty)
    have hlanes := (h.work.before (a := Event.start s) ⟨rfl, rfl, rfl, rfl, rfl⟩ rfl rfl).work.lanes
    have hexec : exec .streamStart s = .next (restartStream origin
        ((Event.start (s.takeBlock rest)).addCauseIf (!s.ring.isEmpty) .streamFault)).finish := by
      rw [exec_streamStart hframe, wordAt_encWord]
      rfl
    refine ⟨_, hexec, ?_, ?_, ?_, ?_, fun i => ?_, ?_, fun fl => ?_, fun l => ?_, h.work.finish h.frame, ?_, ?_,
      h.frame.spread_finish, h.frame.sameButForRows⟩
    · exact (Event.finish_ring _).trans h.ring
    · exact (Event.finish_ingest _).trans h.ingest
    · rw [Event.finish_monitor]
      exact congrArg Monitor.origin h.monitor
    · rw [Event.finish_monitor]
      exact congrArg Monitor.position h.monitor
    · rw [Event.finish_monitor]
      exact h.table i
    · exact (Event.finish_sweeps _).trans h.sweeps
    · rw [Event.finish_fleets]
      exact h.fleets fl
    · rw [Event.finish_lanes]
      rw [hlanes]
      exact s.resolvedDroppable_lane _ l
    · refine (Event.finish_pending_bit h.frame 3).trans ?_
      rw [h.fault, start_raised_bit, Bool.false_or]
      cases s.ring <;> simp [State.takeBlock]
    · refine (Event.finish_pending_bit h.frame 1).trans ?_
      rw [h.dropped, start_raised_bit, Bool.false_or]
      rfl
  · intro s tag p rest first n o hframe hgood horigin hd hlo hhi dropped
    have h := (restartStream_restarted first (ev := (Event.start (s.takeBlock rest)).addCause .streamFault) hd).addCause
    have hn := hgood.rows_le
    have hlength := readRows_length n s.ingest.channels p
    have hR : Config.ringRows = 65536 := rfl
    have hblock := h.block hd (readRows n s.ingest.channels p) (by omega)
    have hexec := exec_rowBlock hframe
    rw [handleRowBlock_of_good hgood (ev := Event.start (s.takeBlock rest)) rfl, horigin, Option.elim_some,
      placeBlock_of_far hlo hhi] at hexec
    have hlanes := (hblock.work.before (a := Event.start s) ⟨rfl, rfl, rfl, rfl, rfl⟩ rfl rfl).work.lanes
    have hframed := h.frame.trans hblock.appended.frame
    obtain ⟨hmonitor, -⟩ := hblock.appended.taken
    refine ⟨_, s.monitor.restart (some first), hexec, ?_, ?_, rfl, rfl, fun i => mapVec_getElem resetChannel _ _ _, ?_, ?_,
      fun fl => ?_, fun l => ?_, hblock.work.finish hframed, ?_, ?_, hframed.spread_finish, hframed.sameButForRows⟩
    · rw [Event.finish_ring, hblock.appended.ring, h.ring, hgood.rows, gapRun, List.replicate_zero, List.nil_append,
        List.nil_append]
      exact newestRows_of_le (by rw [numberRows_length, List.length_map]; omega)
    · rw [Event.finish_ingest, hblock.appended.ingest, h.ingest, hlength, Nat.zero_add, satAdd32_zero]
      rfl
    · rw [Event.finish_monitor, hmonitor, h.monitor, h.ingest, hgood.rows,
        show first + BitVec.ofNat 32 0 = first from BitVec.add_zero _]
      rfl
    · rw [Event.finish_sweeps, hblock.sweeps, hlength]
      rfl
    · rw [Event.finish_fleets, hblock.appended.fleets]
      exact h.fleets fl
    · rw [Event.finish_lanes]
      rw [hlanes]
      exact s.resolvedDroppable_lane _ l
    · rw [Event.finish_pending_bit hframed, hblock.appended.fault, h.fault, Bool.or_true, Bool.true_or, Bool.or_true]
    · rw [Event.finish_pending_bit hframed, hblock.dropped, start_raised_bit, Bool.false_or]
      rfl

end Sys2Proof.Machine

/-! PROOFS. No timer is late: events start timers that have time left, and stop the others or leave them (section 0.5). -/

namespace Sys2Proof.Machine

/-- `NoTimerLate` by the places of the timers. -/
structure TimersOnTime (s : State) : Prop where
  fill : ∀ (p : Fin Config.pilots) (x : Timer), (s.pilots[p]).phase.fillTimer = some x → s.clock ≤ x.deadline
  report : ∀ e ∈ s.sweeps, ∀ x : Timer, e.timer = some x → s.clock ≤ x.deadline
  linger : ∀ (k : Fin Config.stackSlots) (st : Stack), s.slots[k] = some st →
    ∀ x : Timer, st.lingerTimer = some x → s.clock ≤ x.deadline

theorem noTimerLate_iff (s : State) : NoTimerLate s ↔ TimersOnTime s := by
  constructor
  · intro h
    refine ⟨fun p x hx => h x (.inl ?_), fun e he x hx => h x (.inr (.inl ⟨e, he, hx⟩)), fun k st hst x hx =>
      h x (.inr (.inr ⟨k, st, hst, lingerTimer_eq_some.1 hx⟩))⟩
    obtain ⟨n, i, held, hphase⟩ := fillTimer_eq_some.1 hx
    exact ⟨p, n, i, held, hphase⟩
  · rintro ⟨hfill, hreport, hlinger⟩ x (⟨p, n, i, held, hphase⟩ | ⟨e, he, hx⟩ | ⟨k, st, hst, hphase⟩)
    · exact hfill p x (fillTimer_eq_some.2 ⟨n, i, held, hphase⟩)
    · exact hreport e he x hx
    · exact hlinger k st hst x (lingerTimer_eq_some.2 hphase)

theorem le_startTimer (s : State) (ms : Nat) : s.clock ≤ (s.startTimer ms).deadline := Nat.le_add_right _ _

namespace TimersOnTime

variable {s t : State}

/-- The entries that stay are old ones, or have a timer with time left, or none. -/
theorem of_entries (h : TimersOnTime s) (hclock : t.clock = s.clock)
    (hpilots : ∀ p : Fin Config.pilots, (t.pilots[p]).phase = (s.pilots[p]).phase)
    (hentries : ∀ e ∈ t.sweeps, ∀ x : Timer, e.timer = some x → s.clock ≤ x.deadline) (hslots : t.slots = s.slots) :
    TimersOnTime t := by
  refine ⟨fun p x => ?_, fun e he x hx => ?_, fun k st hst => ?_⟩ <;> rw [hclock]
  · rw [hpilots]
    exact h.fill p x
  · exact hentries e he x hx
  · rw [hslots] at hst
    exact h.linger k st hst

theorem of_eq (h : TimersOnTime s) (hclock : t.clock = s.clock) (hpilots : t.pilots = s.pilots)
    (hsweeps : t.sweeps = s.sweeps) (hslots : t.slots = s.slots) : TimersOnTime t :=
  h.of_entries hclock (fun p => by rw [hpilots]) (fun e he => h.report e (hsweeps ▸ he)) hslots

theorem of_sublist (h : TimersOnTime s) (hclock : t.clock = s.clock)
    (hpilots : ∀ p : Fin Config.pilots, (t.pilots[p]).phase = (s.pilots[p]).phase) (hsweeps : t.sweeps ⊆ s.sweeps)
    (hslots : t.slots = s.slots) : TimersOnTime t :=
  h.of_entries hclock hpilots (fun e he => h.report e (hsweeps he)) hslots

theorem of_empty (hpilots : ∀ p : Fin Config.pilots, (t.pilots[p]).phase.fillTimer = none) (hsweeps : t.sweeps = [])
    (hslots : ∀ k : Fin Config.stackSlots, t.slots[k] = none) : TimersOnTime t := by
  refine ⟨fun p x hx => ?_, fun e he => ?_, fun k st hst => ?_⟩
  · rw [hpilots] at hx
    exact absurd hx nofun
  · rw [hsweeps] at he
    exact absurd he List.not_mem_nil
  · rw [hslots] at hst
    exact absurd hst nofun

/-- One slot is written with a stack whose linger timer is on time, or freed. -/
theorem setSlot (h : TimersOnTime s) {k : Fin Config.stackSlots} {v : Option Stack}
    (hv : ∀ st, v = some st → ∀ x : Timer, st.lingerTimer = some x → s.clock ≤ x.deadline) :
    TimersOnTime (s.setSlot k v) := by
  refine ⟨h.fill, h.report, fun i st hst => ?_⟩
  rw [State.setSlot_slots, vector_set_getElem] at hst
  split at hst
  · exact hv st hst
  · exact h.linger i st hst

/-- One slot is written with a stack without a linger timer. -/
theorem setSlot_stopped (h : TimersOnTime s) (k : Fin Config.stackSlots) {st : Stack} (hst : st.lingerTimer = none) :
    TimersOnTime (s.setSlot k (some st)) :=
  h.setSlot fun st' hst' x hx => by
    rw [← Option.some.inj hst', hst] at hx
    exact absurd hx nofun

/-- One slot is written with the linger timer it had, if it had one. -/
theorem setSlot_same (h : TimersOnTime s) {k : Fin Config.stackSlots} {old st : Stack} (hold : s.slots[k] = some old)
    (hst : st.phase = old.phase) : TimersOnTime (s.setSlot k (some st)) :=
  h.setSlot fun st' hst' x hx => by
    refine h.linger k old hold x ?_
    rw [lingerTimer_eq_some, ← hst, Option.some.inj hst']
    exact lingerTimer_eq_some.1 hx

theorem sealedAs (h : TimersOnTime s) (k : Fin Config.stackSlots) (cause : SealCause) (st : Stack) :
    TimersOnTime (s.sealedAs k cause st) := by
  unfold State.sealedAs
  dsimp only
  split
  · exact (h.setSlot_stopped k (st := { st with phase := .draining cause }) rfl).of_eq rfl rfl rfl rfl
  · exact (h.setSlot_stopped k (st := { st with phase := .sealed cause s.sealOrders }) rfl).of_eq rfl rfl rfl rfl

theorem sealSlot {ev : Event} (h : TimersOnTime ev.st) (k : Fin Config.stackSlots) (cause : SealCause) (st : Stack) :
    TimersOnTime (sealSlot k cause st ev).st := by
  rw [sealSlot_eq]
  exact h.sealedAs k cause st

theorem removeEntry (h : TimersOnTime s) (e : SweepEntry) : TimersOnTime (removeEntry e s) := by
  have hremoved : TimersOnTime { s with sweeps := removeFirst (fun x => decide (x.number = e.number)) s.sweeps } :=
    h.of_sublist rfl (fun _ => rfl) (removeFirst_sublist _ _).subset rfl
  have hunpinned : TimersOnTime ({ s with
      sweeps := removeFirst (fun x => decide (x.number = e.number)) s.sweeps }.unpinPilot e.pilot) := by
    refine hremoved.of_entries rfl (fun p => ?_) hremoved.report rfl
    rw [State.unpinPilot, State.setPilot_pilots, vector_set_getElem]
    split
    next hp => subst hp; rfl
    · rfl
  unfold Machine.removeEntry abortJob
  split
  · exact hunpinned.of_eq rfl rfl rfl rfl
  · exact hunpinned

theorem resolveStack {ev : Event} (h : TimersOnTime ev.st) (k : Fin Config.stackSlots) {out : SweepOutcome}
    (hout : out ≠ .droppedClear) : TimersOnTime (resolveStack k out ev).st := by
  rw [resolveStack_eq k hout]
  cases hst : ev.st.slots[k] with
  | none => exact h
  | some st =>
    dsimp only
    cases st.drainsWith with
    | none => exact h.setSlot_same hst rfl
    | some c =>
      exact (h.setSlot_stopped k (st := { st.countedFor out with phase := .sealed c ev.st.sealOrders }) rfl).of_eq
        rfl rfl rfl rfl

theorem resolve {ev : Event} (h : TimersOnTime ev.st) {out : SweepOutcome} (hout : out ≠ .droppedClear)
    (counts : Option JobCounts) (e : SweepEntry) : TimersOnTime (resolve out counts e ev).st := by
  unfold Machine.resolve
  dsimp only
  rw [if_neg hout]
  exact resolveStack (h.removeEntry e) e.slot hout

/-- One entry is written with a timer it had, or that has time left. -/
theorem updateSweep (h : TimersOnTime s) (n : Word32) {f : SweepEntry → SweepEntry}
    (hf : ∀ e ∈ s.sweeps, ∀ x : Timer, (f e).timer = some x → s.clock ≤ x.deadline) :
    TimersOnTime (s.updateSweep n f) := by
  refine h.of_entries rfl (fun _ => rfl) (fun e he x hx => ?_) rfl
  obtain ⟨e0, he0, rfl⟩ := List.mem_map.1 he
  split at hx
  · exact hf e0 he0 x hx
  · exact h.report e0 he0 x hx

end TimersOnTime

theorem Change.keeps_timersOnTime {a b : Event} (h : Change a b) (ha : TimersOnTime a.st) : TimersOnTime b.st := by
  cases h with
  | cause => exact ha
  | flush => exact ha.of_eq (by simp) (by simp) (by simp) (by simp)
  | links h => exact ha.of_eq h.clock h.pilots h.sweeps h.slots
  | @pilots v hmoves =>
    refine ⟨fun p x hx => ?_, ha.report, ha.linger⟩
    exact ((hmoves p).timer x hx).elim (ha.fill p x) id
  | latches => exact ha.of_eq rfl rfl rfl rfl
  | @settle e qc fails he =>
    obtain ⟨ev1, hst, -, h⟩ := settleSweep_cases e (e.settle qc fails) a
    have hupdated : TimersOnTime ev1.st := by
      rw [hst]
      exact ha.updateSweep e.number fun _ _ x hx => absurd (show none = some x from hx) nofun
    rcases h with h | ⟨-, h⟩ <;> rw [h]
    · exact hupdated
    · exact hupdated.resolve (out := .rejectedQc) nofun _ _
  | resolve _ hout he => exact ha.resolve hout _ _
  | sealed cause hst => exact ha.sealSlot _ cause _
  | @linger k st fl ms _ hst =>
    refine ha.setSlot (k := k) fun st' hst' x hx => ?_
    rw [← Option.some.inj hst'] at hx
    rw [← Option.some.inj (show some (a.st.startTimer ms) = some x from hx)]
    exact le_startTimer a.st ms
  | @grant e l =>
    exact (ha.updateSweep e.number (f := fun x => { x with stage := .correlating l }) ha.report).of_eq rfl rfl rfl rfl

theorem StreamChange.keeps_timersOnTime {a b : Event} (h : StreamChange a b) (ha : TimersOnTime a.st) :
    TimersOnTime b.st := by
  cases h with
  | change h => exact h.keeps_timersOnTime ha
  | stream h => exact ha.of_eq h.clock h.pilots h.sweeps h.slots
  | arrive =>
    refine ha.of_entries rfl (fun _ => rfl) (fun e he x hx => ?_) rfl
    obtain ⟨e0, he0, rfl⟩ := List.mem_map.1 he
    unfold SweepEntry.arrive at hx
    split at hx
    · dsimp only at hx
      split at hx
      · rw [← Option.some.inj hx]
        exact le_startTimer _ _
      · exact ha.report e0 he0 x hx
    · exact ha.report e0 he0 x hx
  | slip => exact ha.of_eq rfl rfl rfl rfl

/-! ### Commands of their own -/

namespace TimersOnTime

variable {s : State}

theorem askPort (h : TimersOnTime s) (l : Fin Config.lanes) (j : Job) (sc : Scratch) :
    TimersOnTime (askPort l j sc s) := by
  unfold Machine.askPort
  dsimp only
  split <;> exact h.of_eq rfl rfl rfl rfl

theorem passPort (h : TimersOnTime s) (k : Fin Config.stackSlots) : TimersOnTime (passPort k s) := by
  unfold Machine.passPort
  split
  · exact h.of_eq rfl rfl rfl rfl
  · unfold beginMerge
    split <;> exact h.of_eq rfl rfl rfl rfl

theorem applyMerge (h : TimersOnTime s) (j : Job) (sc : Scratch) : TimersOnTime (applyMerge j sc s) := by
  unfold Machine.applyMerge
  split
  · exact h
  next st hst => exact h.setSlot_same hst rfl

theorem mergeEvent (h : TimersOnTime s) (l : Fin Config.lanes) (j : Job) (sc : Scratch) :
    TimersOnTime ((resolveMerged j sc (Event.start (Machine.applyMerge j sc s))).change fun u =>
      Machine.passPort j.slot (u.setLane l .idle)).st := by
  have hresolved : TimersOnTime (resolveMerged j sc (Event.start (Machine.applyMerge j sc s))).st := by
    rcases resolveMerged_cases j sc (Event.start (Machine.applyMerge j sc s)) with hm | ⟨e, -, hm⟩ <;> rw [hm]
    · exact h.applyMerge j sc
    · exact (h.applyMerge j sc).resolve (out := .merged) nofun _ _
  generalize resolveMerged j sc (Event.start (Machine.applyMerge j sc s)) = ev at hresolved ⊢
  have hidle : TimersOnTime (ev.st.setLane l .idle) := hresolved.of_eq rfl rfl rfl rfl
  exact hidle.passPort j.slot

theorem sealMoved (h : TimersOnTime s) (fl : Fin Config.fleets) (vp : Word32) :
    TimersOnTime (sealMoved fl vp (Event.start s)).st ∧ (Machine.sealMoved fl vp (Event.start s)).st.clock = s.clock := by
  rcases sealMoved_cases fl vp (Event.start s) with hm | ⟨k, st, -, -, hm⟩ <;> rw [hm]
  · exact ⟨h, rfl⟩
  · refine ⟨sealSlot (ev := Event.start s) h k .fleetMoved st, ?_⟩
    rw [sealSlot_eq]
    unfold State.sealedAs
    dsimp only
    split <;> rfl

theorem opened (h : TimersOnTime s) (k : Fin Config.stackSlots) (fl : Fin Config.fleets) (vp : Word32) :
    TimersOnTime (s.openSlot k fl vp) := by
  unfold State.openSlot
  dsimp only
  exact (h.setSlot_stopped k rfl).of_eq rfl rfl rfl rfl

theorem joined (h : TimersOnTime s) (k : Fin Config.stackSlots) (st : Stack) : TimersOnTime (s.joinSlot k st) := by
  refine h.setSlot fun st' hst' x hx => ?_
  rw [← Option.some.inj hst', lingerTimer_eq_some] at hx
  dsimp only at hx
  split at hx
  · rw [← StackPhase.linger.inj hx]
    exact le_startTimer s _
  next hnot => exact absurd hx (hnot x)

/-- An announced entry's report timer runs from now, or does not run. -/
theorem addSweep (h : TimersOnTime s) {e : SweepEntry}
    (he : ∀ x : Timer, e.timer = some x → s.clock ≤ x.deadline) : TimersOnTime (addSweep e s) := by
  refine h.of_entries rfl (fun p => ?_) (fun x hx => ?_) rfl
  · show ((s.pinPilot e.pilot).pilots[p]).phase = _
    rw [State.pinPilot, State.setPilot_pilots, vector_set_getElem]
    split
    next hp => subst hp; rfl
    · rfl
  · rcases List.mem_append.1 hx with hold | hnew
    · exact h.report x hold
    · rw [List.mem_singleton.1 hnew]
      exact he

end TimersOnTime

theorem newEntry_timer (s : State) (fl : Fin Config.fleets) (vp : Word32) (slot : Fin Config.stackSlots)
    (p : Fin Config.pilots) (t0 : Ssn) (length energy : Nat) {x : Timer}
    (h : (newEntry s fl vp slot p t0 length energy).timer = some x) : s.clock ≤ x.deadline := by
  unfold newEntry at h
  dsimp only at h
  split at h
  · rw [← Option.some.inj h]
    exact le_startTimer s _
  · exact absurd h nofun

theorem Single.keeps_timersOnTime {c : Instr} {s : State} {ev : Event} (h : Single c s ev) (hs : TimersOnTime s) :
    TimersOnTime ev.st := by
  cases h with
  | reset => exact .of_empty (by simp [State.reset, PilotSlot.reset, PilotPhase.fillTimer]) rfl (by simp [State.reset])
  | @join _ fl vp p t0 n _ _ energy k st =>
    exact (hs.joined k st).addSweep fun x => newEntry_timer s fl vp k p t0 n energy
  | @fresh _ fl vp p t0 n _ _ energy k =>
    obtain ⟨hsealed, hclock⟩ := hs.sealMoved fl vp
    generalize sealMoved fl vp (Event.start s) = ev at hsealed hclock ⊢
    refine (hsealed.opened k fl vp).addSweep fun x hx => ?_
    rw [show (ev.st.openSlot k fl vp).clock = s.clock from hclock]
    exact newEntry_timer s fl vp k p t0 n energy hx
  | @correlate _ l j hlane =>
    have hupdated : TimersOnTime (s.updateSweep j.sweep fun x => { x with stage := .merging l }) :=
      hs.updateSweep j.sweep hs.report
    exact hupdated.askPort l j _
  | merge => exact hs.mergeEvent _ _ _
  | setup => exact hs.of_eq rfl rfl rfl rfl
  | channelSet => exact hs.of_eq rfl rfl rfl rfl
  | fleetSet => exact hs.of_eq rfl rfl rfl rfl
  | mask => exact hs.of_eq rfl rfl rfl rfl
  | release => exact (hs.setSlot (v := none) nofun).of_eq rfl rfl rfl rfl
  | @read _ k st r hst =>
    unfold moveToHarvesting
    split
    next c _ _ =>
      exact (hs.setSlot_stopped k (st := { st with phase := .harvesting c }) rfl).of_eq rfl rfl rfl rfl
    · exact hs.of_eq rfl rfl rfl rfl
  | clear =>
    rw [clearEvent_eq]
    refine .of_empty (fun p => ?_) rfl (by simp [clearBlocks])
    have hget : ((clearBlocks s).pilots[p]) = clearPilot s.pilots[p] := mapVec_getElem clearPilot _ _ p.isLt
    rw [hget, clearPilot_eq]
    cases (s.pilots[p]).phase <;> rfl

/-- Every command but the commanded expiries keeps the timers on time. -/
theorem exec_timersOnTime {c : Instr} (hc : isPlain c = true ∨ c = .rowBlock ∨ c = .streamStart) {s t : State}
    (h : exec c s = .next t) (hs : TimersOnTime s) : TimersOnTime t := by
  rcases hc with hplain | hstream
  · rcases exec_courses hplain h with hleads | ⟨u, ev, hu, hown, hchain⟩
    · exact hleads.keeps (P := fun ev => TimersOnTime ev.st) (fun _ _ => Change.keeps_timersOnTime) hs
    · have hev : TimersOnTime ev.st := hown.keeps_timersOnTime (hs.of_eq hu.clock hu.pilots hu.sweeps hu.slots)
      have hlast : TimersOnTime (Event.start t).st := by
        clear hown
        generalize Event.start t = last at hchain ⊢
        induction hchain with
        | refl => exact hev
        | tail _ hlast ih => exact hlast.keeps_timersOnTime ih
      exact hlast
  · exact (exec_stream_leads hstream h).keeps (P := fun ev => TimersOnTime ev.st)
      (fun _ _ => StreamChange.keeps_timersOnTime) hs

end Sys2Proof.Machine

/-! PROOFS. The running timers, each with its expiry: an expiry stops its own timer and no other (R45, R92, R131). -/

namespace Sys2Proof.Machine

/-! ### Entries by their numbers -/

/-- An entry found after an entry has changed, its number kept. -/
theorem State.findSweep_updateSweep (s : State) {n : Word32} {f : SweepEntry → SweepEntry}
    (hf : ∀ e, e.number = n → (f e).number = n) (m : Word32) :
    (s.updateSweep n f).findSweep m = (s.findSweep m).map fun e => if e.number = n then f e else e := by
  have hnumber : ∀ e : SweepEntry, (if e.number = n then f e else e).number = e.number := fun e => by
    split
    next h => rw [hf e h, h]
    · rfl
  show (s.sweeps.map _).find? _ = _
  rw [List.find?_map]
  refine congrArg (Option.map _) (congrArg (List.find? · s.sweeps) (funext fun e => ?_))
  rw [Function.comp, hnumber]

theorem findSweep_number {s : State} {n : Word32} {e : SweepEntry} (h : s.findSweep n = some e) : e.number = n := by
  simpa using List.find?_some h

theorem findSweep_updateSweep_other (s : State) {n m : Word32} {f : SweepEntry → SweepEntry} (hm : m ≠ n)
    (hf : ∀ e, e.number = n → (f e).number = n) : (s.updateSweep n f).findSweep m = s.findSweep m := by
  rw [s.findSweep_updateSweep hf]
  cases h : s.findSweep m with
  | none => rfl
  | some e =>
    have hne : e.number ≠ n := fun he => hm ((findSweep_number h).symm.trans he)
    rw [Option.map_some, if_neg hne]

theorem findSweep_of_filter {s t : State} {n : Word32}
    (hsweeps : t.sweeps = s.sweeps.filter fun x => decide (x.number ≠ n)) (m : Word32) :
    t.findSweep m = if m = n then none else s.findSweep m := by
  unfold State.findSweep
  rw [hsweeps, List.find?_filter]
  split
  next hm => simp [hm]
  next hm =>
    refine congrArg (List.find? · s.sweeps) (funext fun e => ?_)
    by_cases he : e.number = m
    · simp [he, hm]
    · simp [he]

/-! ### Expiries -/

/-- A fill, report or linger timer's expiry. -/
inductive Expiry
  | fill (k : Fin Config.pilots)
  | report (n : Word32)
  | linger (k : Fin Config.stackSlots)

namespace Expiry

/-- The timer that runs for it. -/
def timer (s : State) : Expiry → Option Timer
  | .fill k => (s.pilots[k]).phase.fillTimer
  | .report n => (s.findSweep n).bind SweepEntry.timer
  | .linger k => (s.slots[k]).bind Stack.lingerTimer

/-- What happens at it. -/
def run (s : State) : Expiry → State
  | .fill k => fillTimeout k s
  | .report n => reportTimerExpiry n s
  | .linger k => lingerExpiry k s

/-- The command that makes it. -/
def command : Expiry → Instr
  | .fill k => .fillTimeout k
  | .report n => .reportTimerExpiry n
  | .linger k => .lingerExpiry k

/-- At a commanded expiry time passes up to the timer's deadline first. -/
theorem exec_command {s : State} {c : Expiry} {x : Timer} (h : c.timer s = some x) :
    exec c.command s = .next (c.run (passTo x.deadline s)) := by
  cases c with
  | fill k =>
    show execFillTimeout k s = _
    unfold execFillTimeout
    rw [asFin_val]
    dsimp only
    rw [show (s.pilots[k]).phase.fillTimer = some x from h]
    rfl
  | report n =>
    show execReportTimerExpiry n s = _
    unfold execReportTimerExpiry
    rw [show (s.findSweep n).bind SweepEntry.timer = some x from h]
    rfl
  | linger k =>
    show execLingerExpiry k s = _
    unfold execLingerExpiry
    rw [asFin_val]
    dsimp only
    rw [show (s.slots[k]).bind Stack.lingerTimer = some x from h]
    rfl

end Expiry

/-- The running timers are those of the expiries. -/
theorem runsTimer_iff {s : State} (hd : DistinctNumbers s) (x : Timer) :
    RunsTimer s x ↔ ∃ c : Expiry, c.timer s = some x := by
  constructor
  · rintro (⟨p, n, i, held, hphase⟩ | ⟨e, he, hx⟩ | ⟨k, st, hst, hphase⟩)
    · exact ⟨.fill p, fillTimer_eq_some.2 ⟨n, i, held, hphase⟩⟩
    · exact ⟨.report e.number, by rw [Expiry.timer, State.findSweep_eq_some hd he, Option.bind_some, hx]⟩
    · exact ⟨.linger k, by rw [Expiry.timer, hst, Option.bind_some, lingerTimer_eq_some.2 hphase]⟩
  · rintro ⟨c | n | k, h⟩
    · obtain ⟨n, i, held, hphase⟩ := fillTimer_eq_some.1 h
      exact .inl ⟨_, n, i, held, hphase⟩
    · obtain ⟨e, he, hx⟩ := Option.bind_eq_some_iff.1 h
      exact .inr (.inl ⟨e, findSweep_mem he, hx⟩)
    · obtain ⟨st, hst, hx⟩ := Option.bind_eq_some_iff.1 h
      exact .inr (.inr ⟨k, st, hst, lingerTimer_eq_some.1 hx⟩)

/-! ### What an expiry does to the timers -/

/-- The timers read pilot phases, the table and the stacks. -/
theorem Expiry.timer_congr {s t : State} (hpilots : t.pilots = s.pilots) (hsweeps : t.sweeps = s.sweeps)
    (hslots : t.slots = s.slots) (c : Expiry) : c.timer t = c.timer s := by
  cases c with
  | fill k => rw [timer, timer, hpilots]
  | report n => rw [timer, timer, State.findSweep, State.findSweep, hsweeps]
  | linger k => rw [timer, timer, hslots]

theorem Expiry.timer_finish (ev : Event) (c : Expiry) : c.timer ev.finish = c.timer ev.st :=
  timer_congr (Event.finish_pilots _) (Event.finish_sweeps _) (Event.finish_slots _) c

/-- One expiry stops its timer and leaves the others. -/
def StopsTimer (c : Expiry) (s t : State) : Prop :=
  c.timer t = none ∧ ∀ d : Expiry, d ≠ c → d.timer t = d.timer s

theorem StopsTimer.finish {c : Expiry} {s : State} {ev : Event} (h : StopsTimer c s ev.st) : StopsTimer c s ev.finish := by
  obtain ⟨hself, hother⟩ := h
  exact ⟨(c.timer_finish ev).trans hself, fun d hd => (d.timer_finish ev).trans (hother d hd)⟩

theorem StopsTimer.refl {c : Expiry} {s : State} (h : c.timer s = none) : StopsTimer c s s := ⟨h, fun _ _ => rfl⟩

theorem fillTimeout_stops (k : Fin Config.pilots) (s : State) : StopsTimer (.fill k) s (fillTimeout k s) := by
  unfold fillTimeout
  split
  · refine StopsTimer.finish ⟨?_, fun d hd => ?_⟩
    · show ((s.pilots.set k _)[k]).phase.fillTimer = none
      rw [vector_set_getElem, if_pos rfl]
      rfl
    · cases d with
      | fill i =>
        show ((s.pilots.set k _)[i]).phase.fillTimer = _
        rw [vector_set_getElem, if_neg fun h => hd (congrArg Expiry.fill h.symm)]
        rfl
      | report n => rfl
      | linger i => rfl
  next hnot =>
    refine .refl ?_
    cases h : (Expiry.fill k).timer s with
    | none => rfl
    | some x =>
      obtain ⟨n, i, held, hphase⟩ := fillTimer_eq_some.1 h
      exact absurd hphase (hnot n i held x)

theorem sealedAs_stops (s : State) (k : Fin Config.stackSlots) (cause : SealCause) (st : Stack) :
    StopsTimer (.linger k) s (s.sealedAs k cause st) := by
  obtain ⟨st', hslots, hstopped, hpilots, hsweeps⟩ : ∃ st' : Stack,
      (s.sealedAs k cause st).slots = s.slots.set k (some st') ∧ st'.lingerTimer = none ∧
        (s.sealedAs k cause st).pilots = s.pilots ∧ (s.sealedAs k cause st).sweeps = s.sweeps := by
    unfold State.sealedAs
    dsimp only
    split
    · exact ⟨{ st with phase := .draining cause }, rfl, rfl, rfl, rfl⟩
    · exact ⟨{ st with phase := .sealed cause s.sealOrders }, rfl, rfl, rfl, rfl⟩
  refine ⟨?_, fun d hd => ?_⟩
  · rw [Expiry.timer, hslots, vector_set_getElem, if_pos rfl, Option.bind_some, hstopped]
  · cases d with
    | fill i => rw [Expiry.timer, Expiry.timer, hpilots]
    | report n => rw [Expiry.timer, Expiry.timer, State.findSweep, State.findSweep, hsweeps]
    | linger i =>
      rw [Expiry.timer, Expiry.timer, hslots, vector_set_getElem,
        if_neg fun h => hd (congrArg Expiry.linger h.symm)]

theorem lingerExpiry_stops (k : Fin Config.stackSlots) (s : State) : StopsTimer (.linger k) s (lingerExpiry k s) := by
  unfold lingerExpiry
  split
  next hnone => exact .refl (by rw [Expiry.timer, hnone]; rfl)
  next st hst =>
    split
    · refine StopsTimer.finish ?_
      rw [sealSlot_eq]
      exact sealedAs_stops s k .lingerExpired st
    next hnot =>
      refine .refl ?_
      rw [Expiry.timer, hst, Option.bind_some]
      cases h : st.lingerTimer with
      | none => rfl
      | some x => exact absurd (lingerTimer_eq_some.1 h) (hnot x)

theorem reportTimerExpiry_of_stopped {s : State} {n : Word32} (h : (Expiry.report n).timer s = none) :
    reportTimerExpiry n s = s := by
  unfold reportTimerExpiry
  split
  · rfl
  next e hfind =>
    split
    · rfl
    next x htimer =>
      rw [Expiry.timer, hfind, Option.bind_some, htimer] at h
      exact absurd h nofun

theorem reportTimerExpiry_of_timer {s : State} {n : Word32} {e : SweepEntry} {x : Timer} (hfind : s.findSweep n = some e)
    (htimer : e.timer = some x) :
    reportTimerExpiry n s = (settleSweep e (e.settle .noReport FailSet.empty) (Event.start s)).finish := by
  unfold reportTimerExpiry
  rw [hfind]
  dsimp only
  rw [htimer]

/-- The expiry of a report timer: the entry is settled NOREPORT, and may be resolved REJECTED_QC. -/
theorem reportTimerExpiry_cases {s : State} (hd : DistinctNumbers s) (n : Word32) :
    (Expiry.report n).timer s = none ∧ reportTimerExpiry n s = s ∨
      ∃ (e : SweepEntry) (ev : Event), s.findSweep n = some e ∧ reportTimerExpiry n s = ev.finish ∧
        (ev.st = s.updateSweep n (fun _ => e.settle .noReport FailSet.empty) ∨
          ev.st = (s.updateSweep n fun _ => e.settle .noReport FailSet.empty).resolvedAs
            (e.settle .noReport FailSet.empty) .rejectedQc) := by
  cases htimer : (Expiry.report n).timer s with
  | none => exact .inl ⟨rfl, reportTimerExpiry_of_stopped htimer⟩
  | some x =>
    obtain ⟨e, hfind, hx⟩ := Option.bind_eq_some_iff.1 htimer
    have hnumber := findSweep_number hfind
    subst hnumber
    refine .inr ⟨e, _, hfind, reportTimerExpiry_of_timer hfind hx, ?_⟩
    obtain ⟨ev1, hst, -, h⟩ := settleSweep_cases e (e.settle .noReport FailSet.empty) (Event.start s)
    rcases h with h | ⟨-, h⟩ <;> rw [h]
    · exact .inl hst
    · have hd1 : DistinctNumbers ev1.st := by rw [hst]; exact hd.updateSweep (e.settle_number _ _)
      rw [resolve_eq (by decide) none _ ev1 hd1, hst]
      exact .inr rfl

/-- A resolution leaves a linger timer. -/
theorem Stack.resolvedWith_lingerTimer (st : Stack) (out : SweepOutcome) (order : Word32) :
    (st.resolvedWith out order).lingerTimer = st.lingerTimer := by
  cases hdrains : st.drainsWith with
  | none =>
    rw [Stack.resolvedWith, hdrains]
    rfl
  | some c =>
    rw [Stack.resolvedWith, hdrains]
    unfold Stack.drainsWith at hdrains
    unfold Stack.lingerTimer
    split at hdrains
    next hphase => rw [hphase]
    · exact absurd hdrains nofun

/-- A resolution takes its entry's timer out and leaves the others. -/
theorem resolvedAs_stops (s : State) (e : SweepEntry) (out : SweepOutcome) :
    StopsTimer (.report e.number) s (s.resolvedAs e out) := by
  have hfind := findSweep_of_filter (State.resolvedAs_sweeps s e out)
  refine ⟨?_, fun d hd => ?_⟩
  · rw [Expiry.timer, hfind, if_pos rfl]
    rfl
  · cases d with
    | fill i =>
      rw [Expiry.timer, Expiry.timer, State.resolvedAs_pilots]
      split
      next hp => subst hp; rfl
      · rfl
    | report m => rw [Expiry.timer, Expiry.timer, hfind, if_neg fun h => hd (congrArg Expiry.report h)]
    | linger i =>
      rw [Expiry.timer, Expiry.timer, State.resolvedAs_slots]
      split
      next hi =>
        subst hi
        cases s.slots[e.slot] with
        | none => rfl
        | some st =>
          exact st.resolvedWith_lingerTimer out _
      · rfl

/-- A settled entry has no timer. -/
theorem settled_stops {s : State} {e : SweepEntry} (hfind : s.findSweep e.number = some e) (qc : QcOutcome)
    (fails : FailSet) : StopsTimer (.report e.number) s (s.updateSweep e.number fun _ => e.settle qc fails) := by
  refine ⟨?_, fun d hd => ?_⟩
  · rw [Expiry.timer, s.findSweep_updateSweep fun _ _ => e.settle_number qc fails, hfind, Option.map_some, if_pos rfl]
    rfl
  · cases d with
    | fill i => rfl
    | report m =>
      rw [Expiry.timer, Expiry.timer, findSweep_updateSweep_other s (fun h => hd (congrArg Expiry.report h)) fun _ _ =>
        e.settle_number qc fails]
    | linger i => rfl

theorem StopsTimer.trans {c : Expiry} {s t u : State} (h : StopsTimer c s t) (g : StopsTimer c t u) :
    StopsTimer c s u :=
  ⟨g.1, fun d hd => (g.2 d hd).trans (h.2 d hd)⟩

theorem reportTimerExpiry_stops {s : State} (hd : DistinctNumbers s) (n : Word32) :
    StopsTimer (.report n) s (reportTimerExpiry n s) := by
  rcases reportTimerExpiry_cases hd n with ⟨hstopped, h⟩ | ⟨e, ev, hfind, h, hst⟩ <;> rw [h]
  · exact .refl hstopped
  · have hnumber := findSweep_number hfind
    subst hnumber
    have hsettled := settled_stops hfind .noReport FailSet.empty
    refine StopsTimer.finish ?_
    rcases hst with hst | hst <;> rw [hst]
    · exact hsettled
    · have hresolved := resolvedAs_stops (s.updateSweep e.number fun _ => e.settle .noReport FailSet.empty)
        (e.settle .noReport FailSet.empty) .rejectedQc
      rw [e.settle_number] at hresolved
      exact hsettled.trans hresolved

theorem Expiry.run_stops {s : State} (hd : DistinctNumbers s) (c : Expiry) : StopsTimer c s (c.run s) := by
  cases c with
  | fill k => exact fillTimeout_stops k s
  | report n => exact reportTimerExpiry_stops hd n
  | linger k => exact lingerExpiry_stops k s

end Sys2Proof.Machine

/-! PROOFS. All timers that are due expire, each in its place (section 0.5, log entry 6). -/

namespace Sys2Proof.Machine

/-! ### What expiries and grants leave -/

theorem fillTimeout_clock (k : Fin Config.pilots) (s : State) : (fillTimeout k s).clock = s.clock := by
  unfold fillTimeout
  split
  · exact Event.finish_clock _
  · rfl

theorem State.sealedAs_clock (s : State) (k : Fin Config.stackSlots) (cause : SealCause) (st : Stack) :
    (s.sealedAs k cause st).clock = s.clock := by
  unfold State.sealedAs
  dsimp only
  split <;> rfl

theorem lingerExpiry_clock (k : Fin Config.stackSlots) (s : State) : (lingerExpiry k s).clock = s.clock := by
  unfold lingerExpiry
  split
  · rfl
  · split
    · rw [Event.finish_clock, sealSlot_eq]
      exact s.sealedAs_clock _ _ _
    · rfl

theorem State.resolvedAs_clock (s : State) (e : SweepEntry) (out : SweepOutcome) :
    (s.resolvedAs e out).clock = s.clock := by
  unfold State.resolvedAs
  dsimp only
  cases e.stage <;> split <;> (try split) <;> rfl

theorem DistinctNumbers.of_sweeps {s t : State} (hd : DistinctNumbers s) (h : t.sweeps = s.sweeps) : DistinctNumbers t := by
  unfold DistinctNumbers at *
  rwa [h]

theorem DistinctNumbers.updated {s : State} (hd : DistinctNumbers s) {n : Word32} {f : SweepEntry → SweepEntry}
    (hf : ∀ e, e.number = n → (f e).number = n) : DistinctNumbers (s.updateSweep n f) := by
  have hkept : (s.updateSweep n f).sweeps.map SweepEntry.number = s.sweeps.map SweepEntry.number := by
    refine (List.map_map ..).trans (List.map_congr_left fun x _ => ?_)
    rw [Function.comp_apply]
    split
    next hx => rw [hf x hx, hx]
    · rfl
  rwa [DistinctNumbers, hkept]

theorem Expiry.run_keeps {s : State} (hd : DistinctNumbers s) (c : Expiry) :
    (c.run s).clock = s.clock ∧ DistinctNumbers (c.run s) := by
  cases c with
  | fill k => exact ⟨fillTimeout_clock k s, hd.of_sweeps (fillTimeout_sameTable k s).2⟩
  | linger k => exact ⟨lingerExpiry_clock k s, hd.of_sweeps (lingerExpiry_sameTable k s).2⟩
  | report n =>
    show (reportTimerExpiry n s).clock = _ ∧ DistinctNumbers (reportTimerExpiry n s)
    rcases reportTimerExpiry_cases hd n with ⟨-, h⟩ | ⟨e, ev, hfind, h, hst⟩ <;> rw [h]
    · exact ⟨rfl, hd⟩
    · have hupdated : DistinctNumbers (s.updateSweep n fun _ => e.settle .noReport FailSet.empty) :=
        hd.updated fun _ _ => (e.settle_number _ _).trans (findSweep_number hfind)
      have hev : ev.st.clock = s.clock ∧ DistinctNumbers ev.st := by
        rcases hst with hst | hst <;> rw [hst]
        · exact ⟨rfl, hupdated⟩
        · exact ⟨State.resolvedAs_clock _ _ _, hupdated.of_filter (State.resolvedAs_sweeps _ _ _)⟩
      exact ⟨(Event.finish_clock _).trans hev.1, hev.2.of_sweeps (Event.finish_sweeps _)⟩

/-- A grant leaves every timer. -/
theorem grantNext_keeps {s : State} (hd : DistinctNumbers s) :
    DistinctNumbers (grantNext s) ∧ ∀ c : Expiry, c.timer (grantNext s) = c.timer s := by
  rcases grantNext_cases s with ⟨e, l, -, -, h⟩ | ⟨-, h⟩ <;> rw [h]
  · refine ⟨(hd.updated (n := e.number) (f := fun x => { x with stage := .correlating l }) fun _ => id).of_sweeps rfl,
      fun c => ?_⟩
    cases c with
    | fill k => rfl
    | linger k => rfl
    | report m =>
      have hfind := s.findSweep_updateSweep (n := e.number) (f := fun x => { x with stage := .correlating l })
        (fun _ => id) m
      show ((s.updateSweep e.number fun x => { x with stage := .correlating l }).findSweep m).bind SweepEntry.timer = _
      rw [hfind, Expiry.timer]
      cases s.findSweep m with
      | none => rfl
      | some x =>
        rw [Option.map_some, Option.bind_some, Option.bind_some]
        split <;> rfl
  · exact ⟨hd, fun _ => rfl⟩

theorem grantAll_keeps {s : State} (hd : DistinctNumbers s) :
    DistinctNumbers (grantAll s) ∧ ∀ c : Expiry, c.timer (grantAll s) = c.timer s :=
  grantAll_induction (P := fun t => DistinctNumbers t ∧ ∀ c : Expiry, c.timer t = c.timer s)
    (fun _ ⟨hdt, ht⟩ => ⟨(grantNext_keeps hdt).1, fun c => ((grantNext_keeps hdt).2 c).trans (ht c)⟩) ⟨hd, fun _ => rfl⟩

/-! ### All due timers -/

/-- A timer expires where it is overdue. -/
def Expiry.expire (s : State) (c : Expiry) : State :=
  match c.timer s with
  | none => s
  | some x => if x.isOverdue s.clock then c.run s else s

/-- The expiries in their order: fill timers by slot, report timers in table order, linger timers by slot. -/
def State.expiries (s : State) : List Expiry :=
  (List.finRange Config.pilots).map .fill ++ s.sweeps.map (fun e => .report e.number) ++
    (List.finRange Config.stackSlots).map .linger

theorem fillTimeouts_sweeps (l : List (Fin Config.pilots)) (s : State) : (l.foldl expireFill s).sweeps = s.sweeps := by
  induction l generalizing s with
  | nil => rfl
  | cons k l ih =>
    rw [List.foldl_cons, ih]
    unfold expireFill
    split
    · rfl
    · split
      · exact (fillTimeout_sameTable k s).2
      · rfl

theorem expireDue_eq (s : State) : expireDue s = s.expiries.foldl Expiry.expire s := by
  unfold expireDue State.expiries
  dsimp only
  rw [fillTimeouts_sweeps, List.foldl_append, List.foldl_append, List.foldl_map, List.foldl_map, List.foldl_map,
    List.foldl_map]
  rfl

theorem mem_expiries {s : State} {c : Expiry} {x : Timer} (h : c.timer s = some x) : c ∈ s.expiries := by
  unfold State.expiries
  rw [List.mem_append, List.mem_append, List.mem_map, List.mem_map, List.mem_map]
  cases c with
  | fill k => exact .inl (.inl ⟨k, List.mem_finRange k, rfl⟩)
  | report n =>
    obtain ⟨e, hfind, -⟩ := Option.bind_eq_some_iff.1 h
    exact .inl (.inr ⟨e, findSweep_mem hfind, congrArg _ (findSweep_number hfind)⟩)
  | linger k => exact .inr ⟨k, List.mem_finRange k, rfl⟩

theorem expiries_nodup {s : State} (hd : DistinctNumbers s) : s.expiries.Nodup := by
  unfold State.expiries
  have hfill : ((List.finRange Config.pilots).map Expiry.fill).Nodup :=
    (List.nodup_finRange _).map fun _ _ => Expiry.fill.inj
  have hlinger : ((List.finRange Config.stackSlots).map Expiry.linger).Nodup :=
    (List.nodup_finRange _).map fun _ _ => Expiry.linger.inj
  have hreport : (s.sweeps.map fun e => Expiry.report e.number).Nodup := by
    have h := hd.map (f := Expiry.report) fun _ _ => Expiry.report.inj
    rwa [List.map_map] at h
  refine List.Nodup.append (hfill.append hreport ?_) hlinger ?_
  · intro c hfill hreport
    obtain ⟨k, -, rfl⟩ := List.mem_map.1 hfill
    obtain ⟨e, -, h⟩ := List.mem_map.1 hreport
    exact absurd h nofun
  · intro c hothers hlinger
    obtain ⟨k, -, rfl⟩ := List.mem_map.1 hlinger
    rcases List.mem_append.1 hothers with h | h <;> obtain ⟨_, -, h⟩ := List.mem_map.1 h <;> exact absurd h nofun

theorem Timer.isOverdue_eq_false {x : Timer} {clock : Nat} : x.isOverdue clock = false ↔ clock ≤ x.deadline := by
  rw [Timer.isOverdue, decide_eq_false_iff_not]
  omega

theorem Timer.isOverdue_eq_true {x : Timer} {clock : Nat} : x.isOverdue clock = true ↔ x.deadline < clock := by
  rw [Timer.isOverdue, decide_eq_true_eq, Nat.succ_le_iff]

theorem Expiry.expire_of_none {s : State} {c : Expiry} (h : c.timer s = none) : expire s c = s := by
  rw [expire, h]

theorem Expiry.expire_of_due {s : State} {c : Expiry} {x : Timer} (h : c.timer s = some x) (hdue : x.deadline < s.clock) :
    expire s c = c.run s := by
  rw [expire, h]
  exact if_pos (Timer.isOverdue_eq_true.2 hdue)

theorem Expiry.expire_of_not_due {s : State} {c : Expiry} {x : Timer} (h : c.timer s = some x)
    (hdue : s.clock ≤ x.deadline) : expire s c = s := by
  rw [expire, h]
  exact if_neg (Bool.eq_false_iff.1 (Timer.isOverdue_eq_false.2 hdue))

/-- One expiry, where it is due. -/
theorem Expiry.expire_keeps {s : State} (hd : DistinctNumbers s) (c : Expiry) :
    (expire s c).clock = s.clock ∧ DistinctNumbers (expire s c) ∧
      ∀ (d : Expiry) (x : Timer), d.timer (expire s c) = some x ↔ d.timer s = some x ∧ (d = c → s.clock ≤ x.deadline) := by
  cases htimer : c.timer s with
  | none =>
    rw [expire_of_none htimer]
    refine ⟨rfl, hd, fun d x => ⟨fun h => ⟨h, fun hdc => ?_⟩, And.left⟩⟩
    rw [hdc, htimer] at h
    exact absurd h nofun
  | some y =>
    by_cases hdue : y.deadline < s.clock
    · rw [expire_of_due htimer hdue]
      obtain ⟨hself, hother⟩ := c.run_stops hd
      refine ⟨(c.run_keeps hd).1, (c.run_keeps hd).2, fun d x => ?_⟩
      by_cases hdc : d = c
      · subst hdc
        rw [hself, htimer]
        refine ⟨nofun, fun ⟨hx, hle⟩ => ?_⟩
        rw [← Option.some.inj hx] at hle
        exact absurd hdue (Nat.not_lt.2 (hle rfl))
      · rw [hother d hdc]
        exact ⟨fun h => ⟨h, fun h' => absurd h' hdc⟩, And.left⟩
    · rw [expire_of_not_due htimer (Nat.not_lt.1 hdue)]
      refine ⟨rfl, hd, fun d x => ⟨fun h => ⟨h, fun hdc => ?_⟩, And.left⟩⟩
      rw [hdc, htimer] at h
      rw [← Option.some.inj h]
      exact Nat.not_lt.1 hdue

/-- Expiries one after the other, where they are due. -/
theorem expireList_keeps {s : State} (hd : DistinctNumbers s) (l : List Expiry) :
    (l.foldl Expiry.expire s).clock = s.clock ∧ DistinctNumbers (l.foldl Expiry.expire s) ∧
      ∀ (d : Expiry) (x : Timer), d.timer (l.foldl Expiry.expire s) = some x ↔
        d.timer s = some x ∧ (d ∈ l → s.clock ≤ x.deadline) := by
  induction l generalizing s with
  | nil => exact ⟨rfl, hd, fun d x => ⟨fun h => ⟨h, fun hmem => absurd hmem List.not_mem_nil⟩, And.left⟩⟩
  | cons c l ih =>
    obtain ⟨hclock, hdistinct, htimer⟩ := c.expire_keeps hd
    obtain ⟨hclocks, hdistincts, htimers⟩ := ih hdistinct
    rw [List.foldl_cons]
    refine ⟨hclocks.trans hclock, hdistincts, fun d x => ?_⟩
    rw [htimers, htimer, hclock, List.mem_cons, and_assoc, or_imp]

/-- Every timer that is overdue expires, and no other. -/
theorem expireDue_keeps {s : State} (hd : DistinctNumbers s) :
    (expireDue s).clock = s.clock ∧ DistinctNumbers (expireDue s) ∧
      ∀ (c : Expiry) (x : Timer), c.timer (expireDue s) = some x ↔ c.timer s = some x ∧ s.clock ≤ x.deadline := by
  rw [expireDue_eq]
  obtain ⟨hclock, hdistinct, htimers⟩ := expireList_keeps hd s.expiries
  refine ⟨hclock, hdistinct, fun c x => (htimers c x).trans (and_congr_right fun h => ?_)⟩
  exact ⟨fun hle => hle (mem_expiries h), fun hle _ => hle⟩

/-- No timer of the part is overdue. -/
def OnTime (s : State) : Prop := ∀ (c : Expiry) (x : Timer), c.timer s = some x → s.clock ≤ x.deadline

theorem onTime_iff {s : State} (hd : DistinctNumbers s) : OnTime s ↔ NoTimerLate s := by
  constructor
  · intro h x hx
    obtain ⟨c, hc⟩ := (runsTimer_iff hd x).1 hx
    exact h c x hc
  · exact fun h c x hc => h x ((runsTimer_iff hd x).2 ⟨c, hc⟩)

theorem expireDue_of_onTime {s : State} (h : OnTime s) : expireDue s = s := by
  rw [expireDue_eq]
  generalize s.expiries = l
  induction l with
  | nil => rfl
  | cons c l ih =>
    have hsame : Expiry.expire s c = s := by
      cases htimer : c.timer s with
      | none => exact Expiry.expire_of_none htimer
      | some x => exact Expiry.expire_of_not_due htimer (h c x htimer)
    rw [List.foldl_cons, hsame, ih]

end Sys2Proof.Machine

/-! PROOFS. Time passes millisecond by millisecond, whatever moment it passes to (section 0.5, R99, log entries 3 to 6). -/

namespace Sys2Proof.Machine

/-! ### All grants that are due -/

/-- The IDLE lanes. -/
def idleLanes (s : State) : Finset (Fin Config.lanes) := Finset.univ.filter fun l => s.lanes[l] = .idle

theorem chooseLane_mem {s : State} {l : Fin Config.lanes} (h : chooseLane s = some l) : l ∈ idleLanes s :=
  Finset.mem_filter.2 ⟨Finset.mem_univ l, chooseLane_idle h⟩

theorem noGrant_of_idleLanes {s : State} (h : idleLanes s = ∅) : NoGrant s := by
  refine .inr ?_
  cases hlane : chooseLane s with
  | none => rfl
  | some l =>
    have := chooseLane_mem hlane
    rw [h] at this
    exact absurd this (Finset.notMem_empty l)

/-- A grant takes an IDLE lane. -/
theorem grantNext_idleLanes (s : State) : NoGrant s ∨ (idleLanes (grantNext s)).card < (idleLanes s).card := by
  rcases grantNext_cases s with ⟨e, l, -, hlane, h⟩ | ⟨hnone, -⟩
  · refine .inr (Finset.card_lt_card ?_)
    have hlanes : ∀ i : Fin Config.lanes, (grantNext s).lanes[i] =
        if l = i then .correlating (jobOf s e) else s.lanes[i] := fun i => by
      rw [h]
      exact vector_set_getElem s.lanes l i _
    refine Finset.ssubset_iff_subset_ne.2 ⟨fun i hi => ?_, fun heq => ?_⟩
    · have hi := (Finset.mem_filter.1 hi).2
      rw [hlanes] at hi
      split at hi
      · exact absurd hi nofun
      · exact Finset.mem_filter.2 ⟨Finset.mem_univ i, hi⟩
    · have hl := chooseLane_mem hlane
      rw [← heq] at hl
      have hl := (Finset.mem_filter.1 hl).2
      rw [hlanes, if_pos rfl] at hl
      exact absurd hl nofun
  · exact .inl hnone

/-- "It goes on until one of the two no longer exists" (R99). -/
theorem grantAll_noGrant (s : State) : NoGrant (grantAll s) := by
  have hmany : ∀ (n : Nat) (t : State), NoGrant (grantNext^[n] t) ∨ (idleLanes (grantNext^[n] t)).card + n ≤
      (idleLanes t).card := by
    intro n
    induction n with
    | zero => exact fun t => .inr (Nat.le_refl _)
    | succ n ih =>
      intro t
      rw [Function.iterate_succ_apply']
      rcases ih t with hnone | hcard
      · rw [grantNext_of_noGrant hnone]
        exact .inl hnone
      · rcases grantNext_idleLanes (grantNext^[n] t) with hnone | hless
        · rw [grantNext_of_noGrant hnone]
          exact .inl hnone
        · exact .inr (by omega)
  rcases hmany Config.lanes s with hnone | hcard
  · exact hnone
  · have hall : (idleLanes s).card ≤ Config.lanes := (Finset.card_le_univ _).trans_eq (Fintype.card_fin _)
    have hnone : (idleLanes (grantNext^[Config.lanes] s)).card = 0 := by omega
    exact noGrant_of_idleLanes (Finset.card_eq_zero.1 hnone)

theorem grantAll_grantNext (s : State) : grantAll (grantNext s) = grantAll s := by
  have hswap : grantAll (grantNext s) = grantNext (grantAll s) :=
    (Function.iterate_succ_apply grantNext Config.lanes s).symm.trans (Function.iterate_succ_apply' _ _ _)
  rw [hswap, grantNext_of_noGrant (grantAll_noGrant s)]

/-! ### The clock comes to a moment -/

theorem advanceTo_of_le {m : Nat} {s : State} (h : m ≤ s.clock) : advanceTo m s = s := if_neg (Nat.not_lt.2 h)

theorem advanceTo_of_lt {m : Nat} {s : State} (h : s.clock < m) : advanceTo m s = { grantAll s with clock := m } :=
  if_pos h

theorem advanceTo_advanceTo {m m' : Nat} (h : m ≤ m') (s : State) : advanceTo m' (advanceTo m s) = advanceTo m' s := by
  rcases Nat.lt_or_ge s.clock m with hlt | hle
  · rw [advanceTo_of_lt hlt, advanceTo_of_lt (hlt.trans_le h)]
    rcases Nat.lt_or_eq_of_le h with hlt' | rfl
    · have hnone : NoGrant { grantAll s with clock := m } := grantAll_noGrant s
      rw [advanceTo_of_lt (show ({ grantAll s with clock := m } : State).clock < m' from hlt'), grantAll_of_noGrant hnone]
    · exact advanceTo_of_le (Nat.le_refl m)
  · rw [advanceTo_of_le hle]

theorem advanceTo_keeps {s : State} (hd : DistinctNumbers s) (m : Nat) :
    DistinctNumbers (advanceTo m s) ∧ ∀ c : Expiry, c.timer (advanceTo m s) = c.timer s := by
  rcases advanceTo_cases m s with ⟨-, h⟩ | ⟨-, h⟩ <;> rw [h]
  · exact ⟨hd, fun _ => rfl⟩
  · exact ⟨(grantAll_keeps hd).1, fun c => (Expiry.timer_congr rfl rfl rfl c).trans ((grantAll_keeps hd).2 c)⟩

/-- The part comes to a moment, and what is due by then expires. -/
def comeTo (m : Nat) (s : State) : State := expireDue (advanceTo m s)

theorem comeTo_keeps {s : State} (hd : DistinctNumbers s) (m : Nat) :
    (comeTo m s).clock = max s.clock m ∧ DistinctNumbers (comeTo m s) ∧
      ∀ (c : Expiry) (x : Timer), c.timer (comeTo m s) = some x ↔ c.timer s = some x ∧ max s.clock m ≤ x.deadline := by
  obtain ⟨hdistinct, htimers⟩ := advanceTo_keeps hd m
  obtain ⟨hclock, hdistinct', htimers'⟩ := expireDue_keeps hdistinct
  refine ⟨hclock.trans (advanceTo_clock m s), hdistinct', fun c x => ?_⟩
  rw [comeTo, htimers', htimers, advanceTo_clock]

theorem comeTo_onTime {s : State} (hd : DistinctNumbers s) (m : Nat) : OnTime (comeTo m s) := by
  obtain ⟨hclock, -, htimers⟩ := comeTo_keeps hd m
  intro c x h
  rw [hclock]
  exact ((htimers c x).1 h).2

theorem comeTo_of_le {s : State} (h : OnTime s) {m : Nat} (hm : m ≤ s.clock) : comeTo m s = s := by
  rw [comeTo, advanceTo_of_le hm, expireDue_of_onTime h]

/-- A moment by which nothing expires is only the clock's. -/
theorem comeTo_of_calm {s : State} (hd : DistinctNumbers s) {m : Nat}
    (h : ∀ (c : Expiry) (x : Timer), c.timer s = some x → max s.clock m ≤ x.deadline) : comeTo m s = advanceTo m s := by
  refine expireDue_of_onTime fun c x hx => ?_
  rw [advanceTo_clock]
  exact h c x (((advanceTo_keeps hd m).2 c).symm.trans hx)

/-! ### Millisecond by millisecond -/

/-- One millisecond. -/
def passMs (s : State) : State := comeTo (s.clock + 1) s

theorem passMs_keeps {s : State} (hd : DistinctNumbers s) :
    (passMs s).clock = s.clock + 1 ∧ DistinctNumbers (passMs s) ∧ OnTime (passMs s) := by
  obtain ⟨hclock, hdistinct, -⟩ := comeTo_keeps hd (s.clock + 1)
  exact ⟨hclock.trans (Nat.max_eq_right (Nat.le_succ _)), hdistinct, comeTo_onTime hd _⟩

theorem passMs_iterate_keeps {s : State} (hd : DistinctNumbers s) (h : OnTime s) (n : Nat) :
    (passMs^[n] s).clock = s.clock + n ∧ DistinctNumbers (passMs^[n] s) ∧ OnTime (passMs^[n] s) := by
  induction n with
  | zero => exact ⟨rfl, hd, h⟩
  | succ n ih =>
    rw [Function.iterate_succ_apply']
    obtain ⟨hclock, hdistinct, hontime⟩ := passMs_keeps ih.2.1
    exact ⟨by rw [hclock, ih.1, Nat.add_assoc], hdistinct, hontime⟩

/-- Up to the first moment at which something expires. -/
theorem passMs_to {s : State} (hd : DistinctNumbers s) (n : Nat)
    (h : ∀ (c : Expiry) (x : Timer), c.timer s = some x → s.clock + n ≤ x.deadline) :
    passMs^[n + 1] s = comeTo (s.clock + (n + 1)) s := by
  induction n generalizing s with
  | zero => rfl
  | succ n ih =>
    have hfirst : passMs s = advanceTo (s.clock + 1) s := comeTo_of_calm hd fun c x hx => by
      have := h c x hx
      omega
    obtain ⟨hdistinct, htimers⟩ := advanceTo_keeps hd (s.clock + 1)
    have hclock : (advanceTo (s.clock + 1) s).clock = s.clock + 1 := by
      rw [advanceTo_clock, Nat.max_eq_right (Nat.le_succ _)]
    rw [Function.iterate_succ_apply, hfirst, ih hdistinct fun c x hx => ?_, hclock, comeTo, comeTo,
      advanceTo_advanceTo (by omega)]
    · rw [show s.clock + 1 + (n + 1) = s.clock + (n + 1 + 1) by omega]
    · have := h c x ((htimers c).symm.trans hx)
      omega

/-- Time passes over the due moments as it does millisecond by millisecond. -/
theorem passMoments_eq {time : Nat} (l : List Nat) {s : State} (hd : DistinctNumbers s) (hontime : OnTime s)
    (htime : s.clock ≤ time) (hsorted : l.Pairwise (· ≤ ·)) (hl : ∀ m ∈ l, s.clock ≤ m ∧ m ≤ time)
    (hdue : ∀ (c : Expiry) (x : Timer), c.timer s = some x → x.deadline + 1 ≤ time → x.deadline + 1 ∈ l) :
    advanceTo time (l.foldl (fun s m => comeTo m s) s) = passMs^[time - s.clock] s := by
  induction l generalizing s with
  | nil =>
    have hcalm : ∀ (c : Expiry) (x : Timer), c.timer s = some x → time ≤ x.deadline := fun c x hx => by
      by_contra hlate
      exact absurd (hdue c x hx (by omega)) List.not_mem_nil
    rw [List.foldl_nil]
    cases hn : time - s.clock with
    | zero => exact advanceTo_of_le (by omega)
    | succ n =>
      have hmoment : s.clock + (n + 1) = time := by omega
      rw [passMs_to hd n fun c x hx => by have := hcalm c x hx; omega, hmoment]
      refine (comeTo_of_calm hd fun c x hx => ?_).symm
      have := hcalm c x hx
      omega
  | cons m l ih =>
    obtain ⟨hlow, hhigh⟩ := hl m List.mem_cons_self
    obtain ⟨hfirst, hsorted'⟩ := List.pairwise_cons.1 hsorted
    rw [List.foldl_cons]
    obtain ⟨hclock, hdistinct, htimers⟩ := comeTo_keeps hd m
    rw [Nat.max_eq_right hlow] at hclock htimers
    have hrest := ih hdistinct (comeTo_onTime hd m) (hclock.trans_le hhigh) hsorted'
      (fun m' hm' => ⟨hclock.trans_le (hfirst m' hm'), (hl m' (List.mem_cons_of_mem m hm')).2⟩)
      fun c x hx hle => by
        obtain ⟨hold, hlater⟩ := (htimers c x).1 hx
        rcases List.mem_cons.1 (hdue c x hold hle) with heq | hmem
        · omega
        · exact hmem
    rw [hrest, hclock]
    cases hn : m - s.clock with
    | zero =>
      have hm : m = s.clock := by omega
      rw [comeTo_of_le hontime (by omega), hm]
    | succ n =>
      have hmoment : s.clock + (n + 1) = m := by omega
      have hto := passMs_to hd n fun c x hx => by
        by_cases hle : x.deadline + 1 ≤ time
        · rcases List.mem_cons.1 (hdue c x hx hle) with heq | hmem
          · omega
          · have := hfirst _ hmem
            omega
        · omega
      rw [← hmoment, ← hto, ← Function.iterate_add_apply]
      exact congrArg (fun n => passMs^[n] s) (by omega)

/-- Time passes millisecond by millisecond. -/
theorem passTo_eq_iterate {s : State} (hd : DistinctNumbers s) (hontime : OnTime s) {time : Nat} (htime : s.clock ≤ time) :
    passTo time s = passMs^[time - s.clock] s := by
  refine passMoments_eq (s.dueMoments time) hd hontime htime (dueMoments_sorted s time) (fun m hm => ?_)
    fun c x hx hle => mem_dueMoments.2 ⟨x, (runsTimer_iff hd x).2 ⟨c, hx⟩, rfl, hle⟩
  obtain ⟨x, hx, rfl, hle⟩ := mem_dueMoments.1 hm
  have := (onTime_iff hd).1 hontime x hx
  exact ⟨by omega, hle⟩

end Sys2Proof.Machine

/-! PROOFS. The timers due at an idle step, as commands, and how long timers run while time passes (section 0.5). -/

namespace Sys2Proof.Machine

/-! ### Passing to a moment -/

theorem calmUntil_of_onTime {s : State} (hd : DistinctNumbers s) (h : OnTime s) {moment : Nat} (hm : moment ≤ s.clock) :
    CalmUntil s moment :=
  ⟨fun x hx => hm.trans ((onTime_iff hd).1 h x hx), fun hlt => absurd hlt (Nat.not_lt.2 hm)⟩

theorem passTo_of_le {s : State} (hd : DistinctNumbers s) (h : OnTime s) {time : Nat} (htime : time ≤ s.clock) :
    passTo time s = s := by
  rw [passTo_of_calm (calmUntil_of_onTime hd h htime), Nat.max_eq_left htime]

/-- A timer runs until its latest moment has come. -/
theorem passMs_iterate_timer {s : State} (hd : DistinctNumbers s) (h : OnTime s) (n : Nat) (c : Expiry) (x : Timer) :
    c.timer (passMs^[n] s) = some x ↔ c.timer s = some x ∧ s.clock + n ≤ x.deadline := by
  induction n with
  | zero => exact ⟨fun hx => ⟨hx, h c x hx⟩, And.left⟩
  | succ n ih =>
    obtain ⟨hclock, hdistinct, -⟩ := passMs_iterate_keeps hd h n
    rw [Function.iterate_succ_apply', passMs, (comeTo_keeps hdistinct _).2.2, ih, hclock,
      Nat.max_eq_right (Nat.le_succ _), and_assoc]
    refine and_congr_right fun _ => ?_
    omega

theorem passTo_keeps {s : State} (hd : DistinctNumbers s) (h : OnTime s) (time : Nat) :
    (passTo time s).clock = max s.clock time ∧ DistinctNumbers (passTo time s) ∧ OnTime (passTo time s) ∧
      ∀ (c : Expiry) (x : Timer), c.timer (passTo time s) = some x ↔ c.timer s = some x ∧ time ≤ x.deadline := by
  rcases Nat.le_total s.clock time with hle | hle
  · obtain ⟨hclock, hdistinct, hontime⟩ := passMs_iterate_keeps hd h (time - s.clock)
    rw [passTo_eq_iterate hd h hle]
    refine ⟨by rw [hclock]; omega, hdistinct, hontime, fun c x => ?_⟩
    rw [passMs_iterate_timer hd h, Nat.add_sub_cancel' hle]
  · rw [passTo_of_le hd h hle]
    exact ⟨(Nat.max_eq_left hle).symm, hd, h, fun c x => ⟨fun hx => ⟨hx, hle.trans (h c x hx)⟩, And.left⟩⟩

/-! ### The due expiries as commands (log entry 6) -/

/-- The latest moment of the expiry's timer comes with the next millisecond. -/
def Expiry.isDue (s : State) (c : Expiry) : Bool :=
  match c.timer s with
  | none => false
  | some x => decide (x.deadline = s.clock)

theorem Expiry.isDue_iff {s : State} {c : Expiry} :
    c.isDue s = true ↔ ∃ x, c.timer s = some x ∧ x.deadline = s.clock := by
  unfold isDue
  cases c.timer s <;> simp

theorem Expiry.due_command (s : State) (c : Expiry) : (if c.isDue s then some c.command else none) =
    (c.timer s).bind fun x => if x.deadline = s.clock then some c.command else none := by
  unfold isDue
  cases c.timer s <;> simp

theorem filterMap_eq_map_filter {α β γ : Type} {l : List α} {f : α → β} {p : β → Bool} {h : β → γ} {g : α → Option γ}
    (hg : ∀ a ∈ l, g a = if p (f a) then some (h (f a)) else none) : l.filterMap g = ((l.map f).filter p).map h := by
  induction l with
  | nil => rfl
  | cons a l ih =>
    have ih := ih fun b hb => hg b (List.mem_cons_of_mem a hb)
    rw [List.filterMap_cons, hg a List.mem_cons_self, ih, List.map_cons, List.filter_cons]
    cases p (f a) <;> rfl

theorem dueCommands_eq {s : State} (hd : DistinctNumbers s) :
    dueCommands s = (s.expiries.filter (Expiry.isDue s)).map Expiry.command := by
  unfold dueCommands State.expiries
  rw [List.filter_append, List.filter_append, List.map_append, List.map_append]
  refine congrArg₂ _ (congrArg₂ _ (filterMap_eq_map_filter fun k _ => ?_) (filterMap_eq_map_filter fun e he => ?_))
    (filterMap_eq_map_filter fun k _ => ?_)
  · rw [Expiry.due_command]
    show _ = ((s.pilots[k]).phase.fillTimer).bind _
    generalize (s.pilots[k]).phase = phase
    cases phase <;> rfl
  · rw [Expiry.due_command, Expiry.timer, State.findSweep_eq_some hd he, Option.bind_some]
    cases e.timer <;> rfl
  · rw [Expiry.due_command]
    show _ = ((s.slots[k]).bind Stack.lingerTimer).bind _
    generalize s.slots[k] = slot
    cases slot with
    | none => rfl
    | some st =>
      rw [Option.bind_some, Stack.lingerTimer]
      dsimp only
      cases st.phase <;> rfl

/-- Expiries commanded one after the other at the moment they are due by. -/
theorem runCommands_due {l : List Expiry} {s : State} {now : Nat} {due : Expiry → Bool} (hd : DistinctNumbers s)
    (hclock : s.clock = now + 1) (hnodup : l.Nodup)
    (htimers : ∀ (c : Expiry) (x : Timer), c.timer s = some x → now ≤ x.deadline)
    (hdue : ∀ c ∈ l, due c = true ↔ ∃ x, c.timer s = some x ∧ x.deadline = now) :
    runCommands ((l.filter due).map Expiry.command) s = l.foldl Expiry.expire s := by
  induction l generalizing s with
  | nil => rfl
  | cons c l ih =>
    obtain ⟨hfresh, hnodup⟩ := List.nodup_cons.1 hnodup
    have hc := hdue c List.mem_cons_self
    rw [List.foldl_cons]
    by_cases h : due c = true
    · obtain ⟨x, hx, hdeadline⟩ := hc.1 h
      have hcalm : CalmUntil s x.deadline := by
        refine ⟨fun y hy => ?_, fun hlt => ?_⟩
        · obtain ⟨d, hy⟩ := (runsTimer_iff hd y).1 hy
          exact hdeadline.trans_le (htimers d y hy)
        · omega
      have hexec : exec c.command s = .next (c.run s) := by
        rw [Expiry.exec_command hx, passTo_of_calm hcalm, Nat.max_eq_left (by omega)]
      have hrun : Expiry.expire s c = c.run s := Expiry.expire_of_due hx (by omega)
      obtain ⟨hself, hother⟩ := c.run_stops hd
      have hsub : ∀ (d : Expiry) (y : Timer), d.timer (c.run s) = some y → d.timer s = some y := fun d y hy => by
        by_cases hdc : d = c
        · rw [hdc, hself] at hy
          exact absurd hy nofun
        · rwa [hother d hdc] at hy
      rw [List.filter_cons_of_pos h, List.map_cons, runCommands, hexec, hrun]
      refine ih (c.run_keeps hd).2 ((c.run_keeps hd).1.trans hclock) hnodup (fun d y hy => htimers d y (hsub d y hy))
        fun d hmem => ?_
      rw [hother d fun h => hfresh (h ▸ hmem)]
      exact hdue d (List.mem_cons_of_mem c hmem)
    · have hnone : Expiry.expire s c = s := by
        cases htimer : c.timer s with
        | none => exact Expiry.expire_of_none htimer
        | some x =>
          refine Expiry.expire_of_not_due htimer ?_
          have hlow := htimers c x htimer
          have hne : x.deadline ≠ now := fun heq => h (hc.2 ⟨x, htimer, heq⟩)
          omega
      rw [List.filter_cons_of_neg h, hnone]
      exact ih hd hclock hnodup htimers fun d hmem => hdue d (List.mem_cons_of_mem c hmem)

/-- An idle step without a grant: the timers whose latest moment comes with it expire. -/
theorem idle_eq_runCommands {s : State} (hgrant : NoGrant s) (hd : DistinctNumbers s) (h : OnTime s) :
    idle s = runCommands (dueCommands s) { s with clock := s.clock + 1 } := by
  have hidle : idle s = expireDue { s with clock := s.clock + 1 } := by
    rw [idle_of_noGrant hgrant, passTo_eq_iterate hd h (Nat.le_add_right _ 1), Nat.add_sub_cancel_left]
    show expireDue (advanceTo (s.clock + 1) s) = _
    rw [advanceTo_of_lt (Nat.lt_succ_self _), grantAll_of_noGrant hgrant]
  rw [hidle, expireDue_eq, dueCommands_eq hd]
  exact (runCommands_due (s := { s with clock := s.clock + 1 }) hd rfl (expiries_nodup hd) h fun c _ =>
    Expiry.isDue_iff).symm

/-! ### Every step -/

theorem run_onTime {s : State} (hd : DistinctNumbers s) (h : OnTime s) (c : Expiry) : OnTime (c.run s) := by
  intro d x hx
  obtain ⟨hself, hother⟩ := c.run_stops hd
  rw [(c.run_keeps hd).1]
  by_cases hdc : d = c
  · rw [hdc, hself] at hx
    exact absurd hx nofun
  · rw [hother d hdc] at hx
    exact h d x hx

/-- A commanded expiry: none where no such timer runs, else the expiry once time has passed to the deadline. -/
theorem Expiry.exec_command_onTime {s t : State} (hd : DistinctNumbers s) (h : OnTime s) (c : Expiry)
    (hstopped : c.timer s = none → exec c.command s = .next s) (hexec : exec c.command s = .next t) : NoTimerLate t := by
  cases htimer : c.timer s with
  | none =>
    obtain rfl := Host.Outcome.next.inj ((hstopped htimer).symm.trans hexec)
    exact (onTime_iff hd).1 h
  | some x =>
    obtain rfl := Host.Outcome.next.inj ((exec_command htimer).symm.trans hexec)
    obtain ⟨-, hdistinct, hontime, -⟩ := passTo_keeps hd h x.deadline
    exact (onTime_iff (c.run_keeps hdistinct).2).1 (run_onTime hdistinct hontime c)

theorem asFin_eq_some {n v : Nat} {i : Fin n} (h : asFin n v = some i) : i.val = v := by
  unfold asFin at h
  split at h
  · rw [← Option.some.inj h]
  · exact absurd h nofun

theorem exec_fillTimeout_onTime {s t : State} (hd : DistinctNumbers s) (h : OnTime s) {p : Nat}
    (hexec : exec (.fillTimeout p) s = .next t) : NoTimerLate t := by
  cases hp : asFin Config.pilots p with
  | none =>
    have hsame : exec (.fillTimeout p) s = .next s := by
      show execFillTimeout p s = _
      unfold execFillTimeout
      rw [hp]
    obtain rfl := Host.Outcome.next.inj (hsame.symm.trans hexec)
    exact (onTime_iff hd).1 h
  | some k =>
    obtain rfl : k.val = p := asFin_eq_some hp
    refine Expiry.exec_command_onTime hd h (.fill k) (fun hnone => ?_) hexec
    show execFillTimeout k s = _
    unfold execFillTimeout
    rw [asFin_val]
    dsimp only
    rw [show (s.pilots[k]).phase.fillTimer = none from hnone]

theorem exec_lingerExpiry_onTime {s t : State} (hd : DistinctNumbers s) (h : OnTime s) {p : Nat}
    (hexec : exec (.lingerExpiry p) s = .next t) : NoTimerLate t := by
  cases hp : asFin Config.stackSlots p with
  | none =>
    have hsame : exec (.lingerExpiry p) s = .next s := by
      show execLingerExpiry p s = _
      unfold execLingerExpiry
      rw [hp]
    obtain rfl := Host.Outcome.next.inj (hsame.symm.trans hexec)
    exact (onTime_iff hd).1 h
  | some k =>
    obtain rfl : k.val = p := asFin_eq_some hp
    refine Expiry.exec_command_onTime hd h (.linger k) (fun hnone => ?_) hexec
    show execLingerExpiry k s = _
    unfold execLingerExpiry
    rw [asFin_val]
    dsimp only
    rw [show (s.slots[k]).bind Stack.lingerTimer = none from hnone]

theorem exec_reportTimerExpiry_onTime {s t : State} (hd : DistinctNumbers s) (h : OnTime s) {n : Word32}
    (hexec : exec (.reportTimerExpiry n) s = .next t) : NoTimerLate t := by
  refine Expiry.exec_command_onTime hd h (.report n) (fun hnone => ?_) hexec
  show execReportTimerExpiry n s = _
  unfold execReportTimerExpiry
  rw [show (s.findSweep n).bind SweepEntry.timer = none from hnone]

theorem idle_onTime {s : State} (hd : DistinctNumbers s) (h : OnTime s) : DistinctNumbers (idle s) ∧ OnTime (idle s) := by
  unfold idle tick
  split
  · obtain ⟨hdistinct, htimers⟩ := grantNext_keeps hd
    refine ⟨hdistinct, fun c x hx => ?_⟩
    rw [grantNext_clock]
    exact h c x ((htimers c).symm.trans hx)
  · obtain ⟨-, hdistinct, hontime, -⟩ := passTo_keeps hd h (s.clock + 1)
    exact ⟨hdistinct, hontime⟩

theorem step_noTimerLate {s t : State} (hd : DistinctNumbers s) (h : NoTimerLate s) (hstep : step s = .next t) :
    NoTimerLate t := by
  have hontime := (onTime_iff hd).2 h
  cases hpending : s.pending with
  | nil =>
    rw [step_empty hpending] at hstep
    obtain rfl := Host.Outcome.next.inj hstep
    obtain ⟨hdistinct, hidle⟩ := idle_onTime hd hontime
    exact (onTime_iff hdistinct).1 hidle
  | cons c rest =>
    unfold step at hstep
    rw [hpending] at hstep
    dsimp only at hstep
    have hrest : OnTime { s with pending := rest } := fun c x hx => hontime c x hx
    have hplain : isPlain c = true ∨ c = .rowBlock ∨ c = .streamStart → NoTimerLate t := fun hc =>
      (noTimerLate_iff t).2 (exec_timersOnTime hc hstep (((noTimerLate_iff s).1 h).of_eq rfl rfl rfl rfl))
    cases c with
    | fillTimeout p => exact exec_fillTimeout_onTime (s := { s with pending := rest }) hd hrest hstep
    | reportTimerExpiry n => exact exec_reportTimerExpiry_onTime (s := { s with pending := rest }) hd hrest hstep
    | lingerExpiry k => exact exec_lingerExpiry_onTime (s := { s with pending := rest }) hd hrest hstep
    | rowBlock => exact hplain (.inr (.inl rfl))
    | streamStart => exact hplain (.inr (.inr rfl))
    | _ => exact hplain (.inl rfl)

end Sys2Proof.Machine

/-! PROOFS. The expiries of fill and report timers, and the passing of time by idle steps (R45, R92 to R96, section 0.5). -/

namespace Sys2Proof.Machine

/-! ### The expiry of a report timer (R93 to R96) -/

theorem Event.finish_mk (s : State) (c : CauseSet) (l : List SweepResult) :
    ({ st := s, raised := c, results := l } : Event).finish = (l.foldl State.sendResult s).raise c := rfl

/-- The causes of a missing report: QC_FAILED with action FAIL (R96). -/
def noReportRaises (e : SweepEntry) : CauseSet := if qcFails .noReport e.copy.noReport then Cause.qcFailed.set else 0

/-- The sweep proceeds: it is settled. -/
theorem reportTimerExpiry_of_proceeds {s : State} {n : Word32} {e : SweepEntry} {x : Timer}
    (hfind : s.findSweep n = some e) (htimer : e.timer = some x)
    (h : qcProceeds .noReport e.copy.policy e.copy.noReport = true) :
    reportTimerExpiry n s = (s.updateSweep n fun _ => e.settle .noReport FailSet.empty).raise (noReportRaises e) := by
  have hnumber := findSweep_number hfind
  subst hnumber
  have hkept : (e.settle .noReport FailSet.empty).isRejected = false := by
    rw [SweepEntry.settle_isRejected, h, Bool.not_true, Bool.and_false]
  rw [reportTimerExpiry_of_timer hfind htimer, settleSweep_of_proceeds e hkept, Event.finish_mk]
  rfl

/-- The sweep is stopped: it is resolved REJECTED_QC. -/
theorem reportTimerExpiry_of_rejected {s : State} (hd : DistinctNumbers s) {n : Word32} {e : SweepEntry} {x : Timer}
    (hfind : s.findSweep n = some e) (htimer : e.timer = some x)
    (h : qcProceeds .noReport e.copy.policy e.copy.noReport = false) :
    reportTimerExpiry n s = ((s.resolvedAs e .rejectedQc).sendResult
      ({ e with qc := .noReport, failSet := FailSet.empty, timer := none }.result .rejectedQc none)).raise
        (noReportRaises e ||| resolutionRaises s e) := by
  have hnumber := findSweep_number hfind
  subst hnumber
  have hresolve := resolve_eq (out := .rejectedQc) (by decide) none
    { e with qc := .noReport, failSet := FailSet.empty, timer := none }
    { st := s.updateSweep e.number fun _ => { e with qc := .noReport, failSet := FailSet.empty, timer := none }
      raised := noReportRaises e, results := [] } (hd.updateSweep rfl)
  rw [State.resolvedAs_settled] at hresolve
  rw [reportTimerExpiry_of_timer hfind htimer]
  unfold settleSweep
  rw [SweepEntry.settle_isRejected, h, SweepEntry.settle_of_stopped h, Event.start_change_addCauseIf]
  exact congrArg Event.finish hresolve

/-! ### The queue of commands is not the part's -/

/-- The part with another queue of commands. -/
def State.withQueue (q : List Instr) (s : State) : State := { s with pending := q }

theorem raise_withQueue (q : List Instr) (s : State) (c : CauseSet) :
    (s.withQueue q).raise c = (s.raise c).withQueue q := by
  unfold State.raise State.sendAlert State.withQueue
  dsimp only
  split
  · rfl
  · split <;> rfl

theorem fillTimeout_withQueue (q : List Instr) (k : Fin Config.pilots) (s : State) :
    fillTimeout k (s.withQueue q) = (fillTimeout k s).withQueue q := by
  unfold fillTimeout
  rw [show (s.withQueue q).pilots = s.pilots from rfl]
  split
  · rw [Event.finish_change_addCause, Event.finish_change_addCause, ← raise_withQueue]
    rfl
  · rfl

theorem sealedAs_withQueue (q : List Instr) (s : State) (k : Fin Config.stackSlots) (cause : SealCause) (st : Stack) :
    (s.withQueue q).sealedAs k cause st = (s.sealedAs k cause st).withQueue q := by
  unfold State.sealedAs
  dsimp only
  split <;> rfl

theorem lingerExpiry_withQueue (q : List Instr) (k : Fin Config.stackSlots) (s : State) :
    lingerExpiry k (s.withQueue q) = (lingerExpiry k s).withQueue q := by
  unfold lingerExpiry
  rw [show (s.withQueue q).slots = s.slots from rfl]
  split
  · rfl
  · split
    · rw [sealSlot_finish, sealSlot_finish, sealedAs_withQueue, raise_withQueue]
    · rfl

theorem resolvedAs_withQueue (q : List Instr) (s : State) (e : SweepEntry) (out : SweepOutcome) :
    (s.withQueue q).resolvedAs e out = (s.resolvedAs e out).withQueue q := by
  unfold State.resolvedAs
  rw [show (s.withQueue q).slots = s.slots from rfl]
  dsimp only
  cases e.stage <;> split <;> (try split) <;> rfl

theorem reportTimerExpiry_withQueue {s : State} (hd : DistinctNumbers s) (q : List Instr) (n : Word32) :
    reportTimerExpiry n (s.withQueue q) = (reportTimerExpiry n s).withQueue q := by
  cases htimer : (Expiry.report n).timer s with
  | none => rw [reportTimerExpiry_of_stopped htimer, reportTimerExpiry_of_stopped (s := s.withQueue q) htimer]
  | some x =>
    obtain ⟨e, hfind, hx⟩ := Option.bind_eq_some_iff.1 htimer
    cases hproceeds : qcProceeds .noReport e.copy.policy e.copy.noReport with
    | true =>
      rw [reportTimerExpiry_of_proceeds hfind hx hproceeds,
        reportTimerExpiry_of_proceeds (s := s.withQueue q) hfind hx hproceeds, ← raise_withQueue]
      rfl
    | false =>
      rw [reportTimerExpiry_of_rejected hd hfind hx hproceeds,
        reportTimerExpiry_of_rejected (s := s.withQueue q) hd hfind hx hproceeds, ← raise_withQueue, resolvedAs_withQueue]
      rfl

theorem run_withQueue {s : State} (hd : DistinctNumbers s) (q : List Instr) (c : Expiry) :
    c.run (s.withQueue q) = (c.run s).withQueue q := by
  cases c with
  | fill k => exact fillTimeout_withQueue q k s
  | report n => exact reportTimerExpiry_withQueue hd q n
  | linger k => exact lingerExpiry_withQueue q k s

theorem expireDue_withQueue {s : State} (hd : DistinctNumbers s) (q : List Instr) :
    expireDue (s.withQueue q) = (expireDue s).withQueue q := by
  rw [expireDue_eq, expireDue_eq, show (s.withQueue q).expiries = s.expiries from rfl]
  generalize s.expiries = l
  induction l generalizing s with
  | nil => rfl
  | cons c l ih =>
    have hone : Expiry.expire (s.withQueue q) c = (Expiry.expire s c).withQueue q := by
      have hsame : c.timer (s.withQueue q) = c.timer s := Expiry.timer_congr rfl rfl rfl c
      unfold Expiry.expire
      rw [hsame, show (s.withQueue q).clock = s.clock from rfl]
      split
      · rfl
      · split
        · exact run_withQueue hd q c
        · rfl
    rw [List.foldl_cons, List.foldl_cons, hone]
    exact ih (c.expire_keeps hd).2.1

theorem grantNext_withQueue (q : List Instr) (s : State) :
    grantNext (s.withQueue q) = (grantNext s).withQueue q := by
  unfold grantNext
  rw [show (s.withQueue q).sweeps = s.sweeps from rfl, show chooseLane (s.withQueue q) = chooseLane s from rfl]
  cases chooseSweep s.sweeps <;> cases chooseLane s <;> rfl

theorem advanceTo_withQueue (q : List Instr) (m : Nat) (s : State) :
    advanceTo m (s.withQueue q) = (advanceTo m s).withQueue q := by
  have hall : grantAll (s.withQueue q) = (grantAll s).withQueue q :=
    (Function.Semiconj.iterate_right (f := State.withQueue q) (fun t => (grantNext_withQueue q t).symm) _ s).symm
  unfold advanceTo
  rw [show (s.withQueue q).clock = s.clock from rfl, hall]
  split <;> rfl

theorem passMs_withQueue {s : State} (hd : DistinctNumbers s) (q : List Instr) :
    passMs (s.withQueue q) = (passMs s).withQueue q := by
  show expireDue (advanceTo (s.clock + 1) (s.withQueue q)) = _
  rw [advanceTo_withQueue, expireDue_withQueue (advanceTo_keeps hd _).1]
  rfl

/-! ### Idle steps up to a moment -/

theorem idle_of_grantDue {s : State} (h : s.grantDue = true) : idle s = grantNext s := if_pos h

theorem idle_of_not_grantDue {s : State} (hd : DistinctNumbers s) (hontime : OnTime s) (h : s.grantDue = false) :
    idle s = passMs s := by
  rw [idle_of_noGrant (grantDue_eq_false.1 h), passTo_eq_iterate hd hontime (Nat.le_add_right _ 1),
    Nat.add_sub_cancel_left]
  rfl

theorem idle_withQueue {s : State} (hd : DistinctNumbers s) (hontime : OnTime s) (q : List Instr) :
    idle (s.withQueue q) = (idle s).withQueue q := by
  cases h : s.grantDue with
  | true => rw [idle_of_grantDue h, idle_of_grantDue (s := s.withQueue q) h, grantNext_withQueue]
  | false =>
    rw [idle_of_not_grantDue hd hontime h, idle_of_not_grantDue (s := s.withQueue q) hd hontime h, passMs_withQueue hd]

theorem passMs_grantNext (s : State) : passMs (grantNext s) = passMs s := by
  have hclock : (grantNext s).clock = s.clock := grantNext_clock s
  rw [passMs, passMs, comeTo, comeTo, hclock, advanceTo_of_lt (hclock.trans_lt (Nat.lt_succ_self _)),
    advanceTo_of_lt (Nat.lt_succ_self s.clock), grantAll_grantNext]

/-- The first idle step on the way to a moment. -/
theorem passTo_idle {s : State} (hd : DistinctNumbers s) (hontime : OnTime s) {time : Nat} (h : s.clock < time) :
    passTo time s = passTo time (idle s) := by
  obtain ⟨hdistinct, hidle⟩ := idle_onTime hd hontime
  cases hdue : s.grantDue with
  | true =>
    rw [idle_of_grantDue hdue] at hdistinct hidle ⊢
    rw [passTo_eq_iterate hd hontime h.le, passTo_eq_iterate hdistinct hidle ((grantNext_clock s).trans_le h.le),
      grantNext_clock]
    obtain ⟨n, hn⟩ : ∃ n, time - s.clock = n + 1 := ⟨time - s.clock - 1, by omega⟩
    rw [hn, Function.iterate_succ_apply, Function.iterate_succ_apply, passMs_grantNext]
  | false =>
    rw [idle_of_not_grantDue hd hontime hdue] at hdistinct hidle ⊢
    have hclock := (passMs_keeps hd).1
    rw [passTo_eq_iterate hd hontime h.le, passTo_eq_iterate hdistinct hidle (hclock.trans_le h), hclock]
    obtain ⟨n, hn⟩ : ∃ n, time - s.clock = n + 1 := ⟨time - s.clock - 1, by omega⟩
    rw [hn, Function.iterate_succ_apply, show time - (s.clock + 1) = n by omega]

end Sys2Proof.Machine

/-! PROOFS. Timers expire in time, with their effects (R45, R92 to R96, R131). -/

namespace Sys2Proof.Machine

/-- A commanded expiry is the one at the deadline, and there it finds the part at rest. -/
theorem exec_command_passTo {s : State} (hd : DistinctNumbers s) (h : OnTime s) {c : Expiry} {x : Timer}
    (hx : c.timer s = some x) : exec c.command s = exec c.command (passTo x.deadline s) ∧
      CalmUntil (passTo x.deadline s) x.deadline := by
  obtain ⟨hclock, hdistinct, hontime, htimers⟩ := passTo_keeps hd h x.deadline
  have hreached : x.deadline ≤ (passTo x.deadline s).clock := by
    rw [hclock]
    exact Nat.le_max_right _ _
  refine ⟨?_, calmUntil_of_onTime hdistinct hontime hreached⟩
  rw [Expiry.exec_command hx, Expiry.exec_command ((htimers c x).2 ⟨hx, Nat.le_refl _⟩),
    passTo_of_le hdistinct hontime hreached]

/-- The expiry of a fill timer (R45). -/
theorem exec_fillTimeout_of_calm {s : State} {p : Fin Config.pilots} {n : Nat} {i : Fin 4} {held : List (BitVec 16)}
    {timer : Timer} (hphase : (s.pilots[p]).phase = .filling n i held timer) (hcalm : CalmUntil s timer.deadline) :
    exec (.fillTimeout p) s = .next (({ s with clock := max s.clock timer.deadline }.setPilot p { s.pilots[p] with
      phase := .empty, lastResult := .fillTimeout }).raise 0x20#8) := by
  have htimer : (Expiry.fill p).timer s = some timer := fillTimer_eq_some.2 ⟨n, i, held, hphase⟩
  refine (Expiry.exec_command htimer).trans (congrArg Host.Outcome.next ?_)
  rw [passTo_of_calm hcalm]
  show fillTimeout p _ = _
  unfold fillTimeout
  split
  · rw [Event.finish_change_addCause]
    rfl
  next hnot => exact absurd hphase (hnot n i held timer)

section Report

variable {s : State} {e : SweepEntry} {timer : Timer} (hd : DistinctNumbers s) (he : e ∈ s.sweeps)
  (htimer : e.timer = some timer) (hcalm : CalmUntil s timer.deadline)
include hd he htimer hcalm

/-- The expiry of a report timer at its deadline. -/
theorem exec_reportTimerExpiry_of_calm : exec (.reportTimerExpiry e.number) s =
    .next (reportTimerExpiry e.number { s with clock := max s.clock timer.deadline }) := by
  have hrun : (Expiry.report e.number).timer s = some timer := by
    rw [Expiry.timer, State.findSweep_eq_some hd he, Option.bind_some, htimer]
  refine (Expiry.exec_command hrun).trans (congrArg Host.Outcome.next ?_)
  rw [passTo_of_calm hcalm]
  rfl

/-- The sweep proceeds (R94, R95). -/
theorem exec_reportTimerExpiry_of_proceeds (hcomplete : e.dataComplete = true) (hstage : e.stage = .waiting)
    (h : qcProceeds .noReport e.copy.policy e.copy.noReport = true) : exec (.reportTimerExpiry e.number) s =
      .next (({ s with
        clock := max s.clock timer.deadline
        sweeps := s.sweeps.map fun x : SweepEntry => if x.number = e.number then
          { e with qc := .noReport, failSet := FailSet.empty, timer := none, stage := .ready } else x }).raise
            (noReportRaises e)) := by
  have hsettled : e.settle .noReport FailSet.empty =
      { e with qc := .noReport, failSet := FailSet.empty, timer := none, stage := .ready } := by
    rw [SweepEntry.settle_of_proceeds h, if_pos ⟨hcomplete, hstage⟩]
  rw [exec_reportTimerExpiry_of_calm hd he htimer hcalm, reportTimerExpiry_of_proceeds
    (s := { s with clock := max s.clock timer.deadline }) (State.findSweep_eq_some hd he) htimer h, hsettled]
  rfl

/-- The sweep is stopped (R95). -/
theorem exec_reportTimerExpiry_of_rejected (hstage : e.stage = .waiting)
    (h : qcProceeds .noReport e.copy.policy e.copy.noReport = false) : exec (.reportTimerExpiry e.number) s =
      .next (((({ s with clock := max s.clock timer.deadline } : State).resolvedAs e .rejectedQc).sendResult
        ({ e with qc := .noReport, failSet := FailSet.empty, timer := none, stage := .waiting }.result .rejectedQc
          none)).raise (noReportRaises e ||| resolutionRaises s e)) := by
  rw [exec_reportTimerExpiry_of_calm hd he htimer hcalm, reportTimerExpiry_of_rejected
    (s := { s with clock := max s.clock timer.deadline }) hd (State.findSweep_eq_some hd he) htimer h, ← hstage]
  rfl

end Report

/-- Settles O45: idle steps by `idle_eq_runCommands` and `step_noTimerLate`, time passing to a moment by `passTo_idle`, the
commanded expiries at rest by their equations. -/
theorem timersExpire : Obligations.TimersExpire := by
  refine ⟨?_, ?_, fun s t hd h hstep => step_noTimerLate hd h hstep, ?_, ?_, ?_, ?_⟩
  · intro s hpending hgrant hnone
    have hcalm : CalmUntil s (s.clock + 1) := ⟨fun x hx => absurd hx (hnone x), fun _ => hgrant⟩
    rw [step_empty hpending, idle_of_noGrant hgrant, passTo_of_calm hcalm, Nat.max_eq_right (Nat.le_succ _)]
  · intro s hpending hgrant h hd
    rw [step_empty hpending, idle_eq_runCommands hgrant hd ((onTime_iff hd).2 h)]
  · intro s time h hd
    have hontime := (onTime_iff hd).2 h
    refine ⟨passTo_of_le hd hontime, (passTo_keeps hd hontime time).1, fun u htime hstep => ?_⟩
    obtain rfl := Host.Outcome.next.inj ((step_empty (s := s.withQueue []) rfl).symm.trans hstep)
    have hqueue : ({ idle (s.withQueue []) with pending := s.pending } : State) = idle s := by
      rw [idle_withQueue hd hontime]
      exact (idle_withQueue hd hontime s.pending).symm
    rw [passTo_idle hd hontime htime, hqueue]
  · rintro s c timer h hd hc
    have hontime := (onTime_iff hd).2 h
    rcases hc with ⟨p, n, i, held, rfl, hphase⟩ | ⟨e, he, rfl, hx⟩ | ⟨k, st, rfl, hst, hphase⟩
    · exact exec_command_passTo hd hontime (c := .fill p) (fillTimer_eq_some.2 ⟨n, i, held, hphase⟩)
    · exact exec_command_passTo hd hontime (c := .report e.number)
        (by rw [Expiry.timer, State.findSweep_eq_some hd he, Option.bind_some, hx])
    · exact exec_command_passTo hd hontime (c := .linger k)
        (by rw [Expiry.timer, hst, Option.bind_some, lingerTimer_eq_some.2 hphase])
  · exact fun s p n i held timer hphase hcalm => exec_fillTimeout_of_calm hphase hcalm
  · intro s e timer hd he htimer _ hcomplete hstage hcalm settled s1 kept
    refine ⟨fun haction => ?_, fun haction hpolicy => ?_, fun haction hpolicy => ?_⟩
    · have hraises : noReportRaises e = 0 := by rw [noReportRaises, haction]; rfl
      rw [exec_reportTimerExpiry_of_proceeds hd he htimer hcalm hcomplete hstage (by rw [haction]; rfl), hraises,
        State.raise_zero]
    · have hraises : noReportRaises e = 0x80#8 := by rw [noReportRaises, haction]; rfl
      rw [exec_reportTimerExpiry_of_proceeds hd he htimer hcalm hcomplete hstage (by rw [haction, hpolicy]; rfl), hraises]
    · have hraises : noReportRaises e = 0x80#8 := by rw [noReportRaises, haction]; rfl
      rw [exec_reportTimerExpiry_of_rejected hd he htimer hcalm hstage (by rw [haction, hpolicy]; rfl), hraises]

end Sys2Proof.Machine
